-- ==== Sys2Proof/Word.lean ====
section
/-! DEFINITION. The widths of 00_scope.md R5: the host word, a symbol, a node index, a byte offset on the host bus,
and a bit sequence (a code or the stream), first bit first (R11). -/

namespace Sys2Proof

/-- A host data word, a count, a node weight: 32 bits, unsigned (R5 WORD, CNT_BITS; R10). -/
abbrev Word := BitVec 32

/-- A symbol of the alphabet 0..255 (R5 SYM_BITS, NSYM). -/
abbrev Symbol := BitVec 8

/-- An index into the node store (R5 IDX_BITS). -/
abbrev NodeIdx := BitVec 9

/-- A byte offset on the host bus (R5 ADDR_BITS; 20_memory.md R60). -/
abbrev Offset := BitVec 20

/-- A bit sequence: element 0 is the first bit emitted and the first bit consumed (R11). -/
abbrev Code := List Bool

/-- `zext_32` of R10. -/
abbrev zext32 {n : Nat} (v : BitVec n) : Word := v.setWidth 32

end Sys2Proof
end

