-- ==== Sys2Proof/Config.lean ====
section
/-! DEFINITION. What an instance fixes (00_scope.md R5, R6) and the free values: what the spec calls "any value" or
"a fresh draw" (10_state.md R40, R41, R43, R51; 70_reset_and_hazards.md R255). -/

namespace Sys2Proof

/-- The two capacity parameters of R6, fixed for the life of an instance. -/
structure Params where
  /-- SYM_CAP: capacity in symbols of SYM_IN and of SYM_OUT. -/
  symCap : Nat
  /-- BIT_CAP: capacity in bits of the BITS buffer. -/
  bitCap : Nat
deriving DecidableEq, Repr

namespace Config

/-- ID always reads this word, ASCII "HUF1" (10_state.md R22). -/
def idWord : Word := 0x48554631#32

/-- NODE_CAP: entries of the node store (R5). -/
def nodeCap : Nat := 511

/-- The default parameters of R6: SYM_CAP = 4096, BIT_CAP = 131072. -/
def defaultParams : Params := { symCap := 4096, bitCap := 131072 }

/-- A fresh 32-bit draw: `freeWord n j` is the `j`-th word read in the step whose draw count is `n` (log 1). -/
opaque freeWord : Nat → Nat → Word

/-- A fresh 8-bit draw: SYM_IN or SYM_OUT entry `j` read in the step whose draw count is `n` (log 1). -/
opaque freeSymbol : Nat → Nat → Symbol

/-- A fresh draw of a code table entry that holds no value (log 1; no reachable state reads one). -/
opaque freeCode : Nat → Symbol → Code

/-- A fresh draw of the fields IS_LEAF, SYM, WEIGHT, LEFT, RIGHT of a node that holds no value (log 1; no reachable
state's commands read one). -/
opaque freeNode : Nat → NodeIdx → Bool × Symbol × Word × NodeIdx × NodeIdx

end Config

end Sys2Proof
end

