-- ==== Sys2Proof/Syntax.lean ====
section
/-! DEFINITION. The command set (30_encoding.md R82), the names of the register map (10_state.md section 2), the
host's accesses and the turns of the two agents (00_scope.md R7), and the host statements of R85. -/

namespace Sys2Proof

/-- One constructor per row of spec/opcode_table.json (30_encoding.md R82). -/
inductive Instr where
  /-- NOP, 45_control.md R203. -/
  | nop
  /-- CLEAR, 45_control.md R205. -/
  | clear
  /-- FREQ_SET, 40_frequency.md R100; `sym` is command bits 7:0 (R81). -/
  | freqSet (sym : Symbol)
  /-- FREQ_COUNT, 40_frequency.md R102. -/
  | freqCount
  /-- BUILD, 41_tree_builder.md R120. -/
  | build
  /-- GEN, 42_code_table.md R140. -/
  | gen
  /-- MAP, 43_encoder.md R160. -/
  | map
  /-- PARSE, 44_decoder.md R180. -/
  | parse
  /-- ENCODE, 43_encoder.md R162. -/
  | encode
  /-- DECODE, 44_decoder.md R184. -/
  | decode
deriving DecidableEq, Repr

/-- The registers of the map of 10_state.md section 2, in offset order. -/
inductive Reg where
  | id | ctrl | status | cmd | arg | ilen | blen | olen
  | total | ndistinct | root | nnodes | erridx | maxlen | paramSymCap | paramBitCap
deriving DecidableEq, Repr

/-- What a word of the address space is (10_state.md section 2; 20_memory.md R64). -/
inductive Loc where
  | reg (r : Reg)
  /-- FREQ window, R39. -/
  | freq (sym : Symbol)
  /-- CLEN window, R40. -/
  | clen (sym : Symbol)
  /-- CODEBITS window, word `w` of 0..7 of symbol `sym`, R40. -/
  | codebits (sym : Symbol) (w : Nat)
  /-- NODE_W window, R41. -/
  | nodeW (i : Nat)
  /-- NODE_L window, R41. -/
  | nodeL (i : Nat)
  /-- SYM_IN window, R42. -/
  | symIn (i : Nat)
  /-- SYM_OUT window, R43. -/
  | symOut (i : Nat)
  /-- BITS window, R44. -/
  | bits (w : Nat)
  /-- Reserved, R64. -/
  | reserved
deriving DecidableEq, Repr

/-- One host bus access of `bytes` bytes at a byte offset (20_memory.md R60 to R63). -/
inductive Access where
  | read (bytes : Nat) (addr : Offset)
  | write (bytes : Nat) (addr : Offset) (v : Word)
deriving DecidableEq, Repr

/-- Who acts next (00_scope.md R7): the host with one access, the engine with its step, or the reset input RST
(70_reset_and_hazards.md R250). -/
inductive Turn where
  | host (a : Access)
  | engine
  | rst
deriving DecidableEq, Repr

/-- A command as a host program names it: FREQ_SET carries its count (R85). -/
inductive HostCommand where
  | word (i : Instr)
  | freqSet (sym : Symbol) (count : Word)
deriving DecidableEq, Repr

/-- The host statements of 30_encoding.md R85. `polls` is how often a WAIT reads STATUS before the engine's step. -/
inductive HostStmt where
  | wr (l : Loc) (v : Word)
  | rd (l : Loc)
  | wait (polls : Nat)
  | issue (c : HostCommand)
  | run (c : HostCommand) (polls : Nat)
  | loadSym (text : List Symbol)
  | loadBits (blen : Word) (words : List Word)
deriving DecidableEq, Repr

end Sys2Proof
end

