-- ==== Sys2Proof/WellFormed.lean ====
section
/-! DEFINITION. Which command words, host accesses and parameters the spec admits: the three checks of
30_encoding.md R83, the access width of 20_memory.md R61, the parameter ranges of 00_scope.md R6. -/

namespace Sys2Proof

/-- Every term of Instr is a command of R82: its one operand, SYM, is 8 bits by its type. -/
def Instr.wf : Instr → Bool
  | .nop => true
  | .clear => true
  | .freqSet _ => true
  | .freqCount => true
  | .build => true
  | .gen => true
  | .map => true
  | .parse => true
  | .encode => true
  | .decode => true

/-- First check of R83: the opcode is at most 0x09. -/
def Word.opcodeOk (w : BitVec 32) : Bool := decide ((w.extractLsb' 24 8).toNat ≤ 9)

/-- Second check of R83: the reserved field 23:8 is 0. -/
def Word.reservedOk (w : BitVec 32) : Bool := w.extractLsb' 8 16 == 0#16

/-- Third check of R83: only FREQ_SET (0x02) has a symbol operand. -/
def Word.operandOk (w : BitVec 32) : Bool := w.extractLsb' 24 8 == 2#8 || w.extractLsb' 0 8 == 0#8

/-- A legal command word (R83, R84). -/
def Word.wf (w : BitVec 32) : Bool := Word.opcodeOk w && Word.reservedOk w && Word.operandOk w

/-- Only 32-bit accesses are defined (R61). -/
def Access.wf : Access → Bool
  | .read bytes _ => bytes == 4
  | .write bytes _ _ => bytes == 4

/-- The legal parameter values (R6). -/
def Params.legal (p : Params) : Bool :=
  decide (1 ≤ p.symCap) && decide (p.symCap ≤ 16384) &&
  decide (32 ≤ p.bitCap) && decide (p.bitCap ≤ 524288) && decide (p.bitCap % 32 = 0)

end Sys2Proof
end

