-- ==== Sys2Proof/Decode.lean ====
section
/-! DEFINITION. The command decoder (30_encoding.md R83, R84), total on all 2^32 words and rejecting by name, and
the encoder written from the table of R82. -/

namespace Sys2Proof

/-- Why a command word is IllegalCommand: the three checks of R83, in its order. -/
inductive DecodeError where
  /-- OP in 0x0A..0xFF. -/
  | reservedOpcode (op : BitVec 8)
  /-- A non-zero RSV field. -/
  | reservedBits (rsv : BitVec 16)
  /-- A non-zero SYM field under an opcode other than FREQ_SET. -/
  | strayOperand (sym : Symbol)
deriving DecidableEq, Repr

/-- OP, bits 31:24 (R80). -/
def opField (w : Word) : BitVec 8 := w.extractLsb' 24 8

/-- RSV, bits 23:8 (R80). -/
def rsvField (w : Word) : BitVec 16 := w.extractLsb' 8 16

/-- SYM, bits 7:0 (R80, R81). -/
def symField (w : Word) : Symbol := w.extractLsb' 0 8

/-- The command an opcode of R82 stands for, with the symbol operand of FREQ_SET. -/
def opcodeInstr (op : BitVec 8) (sym : Symbol) : Option Instr :=
  match op.toNat with
  | 0x00 => some .nop
  | 0x01 => some .clear
  | 0x02 => some (.freqSet sym)
  | 0x03 => some .freqCount
  | 0x04 => some .build
  | 0x05 => some .gen
  | 0x06 => some .map
  | 0x07 => some .parse
  | 0x08 => some .encode
  | 0x09 => some .decode
  | _ => none

/-- Decoding of a command word, in the order of R83. -/
def decode (w : Word) : Except DecodeError Instr :=
  match opcodeInstr (opField w) (symField w) with
  | none => .error (.reservedOpcode (opField w))
  | some i =>
    if rsvField w ≠ 0#16 then .error (.reservedBits (rsvField w))
    else if opField w ≠ 0x02#8 ∧ symField w ≠ 0#8 then .error (.strayOperand (symField w))
    else .ok i

/-- The command word of R82's table. -/
def encode : Instr → Word
  | .nop => 0x00000000#32
  | .clear => 0x01000000#32
  | .freqSet sym => 0x02000000#32 ||| sym.setWidth 32
  | .freqCount => 0x03000000#32
  | .build => 0x04000000#32
  | .gen => 0x05000000#32
  | .map => 0x06000000#32
  | .parse => 0x07000000#32
  | .encode => 0x08000000#32
  | .decode => 0x09000000#32

/-- The command word whose table bits are `w`, the bits from `nbits` on being 0. -/
def tableWord (nbits w : Nat) : Word := BitVec.ofNat 32 (w % 2 ^ nbits)

/-- What the decoder reads from a word numbered as spec/opcode_table.json numbers it: bit 0 is the least
significant bit of the one 32-bit word. -/
def decodeTableWord (nbits w : Nat) : Option Instr :=
  match decode (tableWord nbits w) with
  | .ok i => some i
  | .error _ => none

end Sys2Proof
end

