-- ==== Sys2Proof/Machine/State.lean ====
section
/-! DEFINITION. The state of the block: exactly 10_state.md R20, and three fields of the model's own (`agenda`,
`draws`, `readData`); the reset state of R50. -/

namespace Sys2Proof.Machine

/-- The error kinds of 60_exceptions.md R220, codes 1 to 7. Codes 8 to 15 are never produced. -/
inductive ErrorKind where
  | unknownSymbol
  | malformedStream
  | invalidFrequencyTable
  | countOverflow
  | capacityExceeded
  | notReady
  | illegalCommand
deriving DecidableEq, Repr

/-- A node of the arena (10_state.md R41). -/
structure Node where
  isLeaf : Bool
  sym : Symbol
  weight : Word
  left : NodeIdx
  right : NodeIdx
deriving DecidableEq, Repr

/-- An array whose words hold no value until written (10_state.md R51): the (index, value) pairs that have been
written, indices strictly rising. An index that is not listed holds no value. With 8-bit entries this is
`List Host.Cell`. -/
abbrev Memory (α : Type) := List (Nat × α)

/-- The code table: per symbol s its bit sequence CODE[s]; CLEN[s] is its length (10_state.md R40). -/
abbrev CodeTable := Vector Code 256

/-- The state of the block. -/
structure State where
  /-- SYM_CAP and BIT_CAP, read at PARAM_SYM_CAP and PARAM_BIT_CAP (R35); no step changes them (log 6). -/
  params : Params
  /-- CTRL.IRQ_EN (R23). -/
  irqEn : Bool
  /-- STATUS.DONE (R24). -/
  done : Bool
  /-- STATUS.OVERRUN (R24). -/
  overrun : Bool
  /-- STATUS.ACCESS_ERR (R24). -/
  accessErr : Bool
  /-- STATUS.TREE_VALID (R24, R46). -/
  treeValid : Bool
  /-- STATUS.CODES_VALID (R24, R47). -/
  codesValid : Bool
  /-- STATUS.ERRCODE, none being code 0; STATUS.ERR is that it is not 0 (R24). -/
  error : Option ErrorKind
  /-- ERRIDX (R36). -/
  errIdx : Word
  /-- CMD_LAST (R26). -/
  cmdLast : Word
  /-- ARG (R27). -/
  arg : Word
  /-- ILEN (R28). -/
  ilen : Word
  /-- BLEN (R29). -/
  blen : Word
  /-- OLEN (R30). -/
  olen : Word
  /-- TOTAL (R31). -/
  total : Word
  /-- NDISTINCT, bits 8:0 (R32). -/
  ndistinct : BitVec 9
  /-- ROOT: none when ROOT_VALID = 0, else ROOT_IDX (R33). -/
  root : Option NodeIdx
  /-- NNODES, bits 9:0 (R34). -/
  nnodes : BitVec 10
  /-- MAXLEN, bits 8:0 (R37). -/
  maxlen : BitVec 9
  /-- PENDING, the command latch; STATUS.BUSY is that it is full (R48). -/
  pending : Option Word
  /-- FREQ[0..255] (R39). -/
  freq : Vector Word 256
  /-- CLEN and CODE; none while the table holds no value (R40, R51). -/
  codes : Option CodeTable
  /-- NODE[0..510] (R41). -/
  nodes : Memory Node
  /-- SYM_IN (R42). -/
  symIn : Memory Symbol
  /-- SYM_OUT (R43). -/
  symOut : Memory Symbol
  /-- BITS (R44). -/
  bits : Memory Word
  /-- The model's own: the turns to come, first first (log 2). -/
  agenda : List Turn
  /-- The model's own: which fresh draws this step sees (log 1). -/
  draws : Nat
  /-- The model's own: the word the last host read returned (log 4). -/
  readData : Option Word
deriving DecidableEq, Repr

/-- What a command's pseudocode leaves before its completion (00_scope.md R12): the state as `complete` finds it, or
the state, error code and ERRIDX of a `raise`. -/
inductive Body where
  | ok (s : State)
  | raised (s : State) (k : ErrorKind) (idx : Word)
deriving DecidableEq, Repr

/-- The reasons a step stops with a fault: there are none. 45_control.md R202: a command "either completes with the
writes its rule makes or completes with an error and the clean-up of its error; no other outcome exists", and every
32-bit host access has an effect (20_memory.md R62 to R64). Nothing raises one; safe (log 18). -/
inductive Fault
deriving DecidableEq, Repr

/-- The reasons a step is refused. -/
inductive Refusal where
  /-- Raised by an arm of exec for a command that has no meaning yet; safe. -/
  | notModelled (mnemonic : String)
  /-- Raised by a host access that is not 4 bytes wide: 20_memory.md R61, "the access has no meaning and the run is
  refused, not given a value"; safe (log 13). -/
  | accessWidth (bytes : Nat)
deriving DecidableEq, Repr

/-- The reset state of an instance with parameters `p` (10_state.md R50, R51). -/
def State.resetWith (p : Params) : State where
  params := p
  irqEn := false
  done := false
  overrun := false
  accessErr := false
  treeValid := false
  codesValid := false
  error := none
  errIdx := 0#32
  cmdLast := 0#32
  arg := 0#32
  ilen := 0#32
  blen := 0#32
  olen := 0#32
  total := 0#32
  ndistinct := 0#9
  root := none
  nnodes := 0#10
  maxlen := 0#9
  pending := none
  freq := Vector.replicate 256 0#32
  codes := none
  nodes := []
  symIn := []
  symOut := []
  bits := []
  agenda := []
  draws := 0
  readData := none

/-- The machine right after reset, with the default parameters (R50, R6). -/
def State.reset : State := State.resetWith Config.defaultParams

end Sys2Proof.Machine
end

