-- ==== Sys2Proof/Machine/Ops.lean ====
section
/-! DEFINITION. The shared operations: arrays that hold no value until written, the alphabet, acceptance, completion
and error completion of a command (45_control.md R200, R202), reset (70_reset_and_hazards.md R250), and the writes of
derived state. -/

namespace Sys2Proof.Machine

/-! ## Arrays -/

/-- The value at index `i`, none where no value is held. -/
def Memory.read {α : Type} (m : Memory α) (i : Nat) : Option α :=
  match m with
  | [] => none
  | (j, u) :: m => if i = j then some u else Memory.read m i

/-- Write index `i`, keeping the indices strictly rising. -/
def Memory.write {α : Type} (m : Memory α) (i : Nat) (v : α) : Memory α :=
  match m with
  | [] => [(i, v)]
  | (j, u) :: m =>
    if i < j then (i, v) :: (j, u) :: m
    else if i = j then (i, v) :: m
    else (j, u) :: Memory.write m i v

/-- Write `vs` at the indices `i`, `i + 1`, ... in order. -/
def Memory.writeFrom {α : Type} (m : Memory α) (i : Nat) (vs : List α) : Memory α :=
  match vs with
  | [] => m
  | v :: vs => Memory.writeFrom (Memory.write m i v) (i + 1) vs

/-- The canonical form: indices strictly rising. -/
abbrev Memory.wf {α : Type} (m : Memory α) : Prop := (m.map Prod.fst).Pairwise (· < ·)

/-- Every listed index is below `n`. -/
abbrev Memory.below {α : Type} (m : Memory α) (n : Nat) : Prop := ∀ c ∈ m, c.1 < n

/-! ## The alphabet -/

/-- The symbols 0..255 in ascending order (00_scope.md R5). -/
def symbols : List Symbol := (List.range 256).map (BitVec.ofNat 8)

/-- The array whose entry `y` is `f y`. -/
def tabulate {α : Type} (f : Symbol → α) : Vector α 256 := ⟨⟨symbols.map f⟩, by simp [symbols]⟩

/-- Entry `y` of an array indexed by symbol. -/
def entry {α : Type} (t : Vector α 256) (y : Symbol) : α := t[y.toNat]'y.isLt

/-! ## Body results -/

/-- Run `f` on the state a body leaves; a raise ends the command (43_encoder.md R162). -/
def Body.andThen (b : Body) (f : State → Body) : Body :=
  match b with
  | .ok s => f s
  | .raised s k idx => .raised s k idx

/-- Apply a command's error clean-up (60_exceptions.md R222). -/
def Body.cleanup (b : Body) (f : State → State) : Body :=
  match b with
  | .ok s => .ok s
  | .raised s k idx => .raised (f s) k idx

/-! ## The command lifecycle -/

/-- STATUS.BUSY: PENDING is full (10_state.md R48). -/
def State.busy (s : State) : Bool := s.pending.isSome

/-- Acceptance of the command word `v` (45_control.md R200). It also ends the error record of the command before
(60_exceptions.md R225). -/
def State.accept (s : State) (v : Word) : State :=
  { s with pending := some v, cmdLast := v, done := false, error := none, errIdx := 0#32 }

/-- Completion without error (R202): no error state is written. -/
def State.complete (s : State) : State := { s with pending := none, done := true }

/-- Completion with an error, the block's error entry (R202; 60_exceptions.md R224): ERRCODE, ERR and ERRIDX record
what and where, PENDING is emptied and DONE set; CMD_LAST keeps which command. -/
def State.raise (s : State) (k : ErrorKind) (idx : Word) : State :=
  { s with error := some k, errIdx := idx, pending := none, done := true }

/-- The end of every engine step: completion of the body's result (R202). -/
def Body.finish (b : Body) : Host.Outcome State Fault Refusal :=
  match b with
  | .ok s => .next s.complete
  | .raised s k idx => .next (s.raise k idx)

/-! ## Reset -/

/-- The state change of reset (70_reset_and_hazards.md R250, R251): every piece of the spec's state takes the value
of 10_state.md R50. The parameters and the model's own fields are not the reset's to change. -/
def State.hardReset (s : State) : State :=
  { State.resetWith s.params with agenda := s.agenda, draws := s.draws, readData := s.readData }

/-! ## Writes of derived state -/

/-- A new frequency table with its TOTAL and NDISTINCT; the tree and the code table no longer match it
(10_state.md R45, R46, R47). -/
def State.setFreq (s : State) (freq : Vector Word 256) (total : Word) (ndistinct : BitVec 9) : State :=
  { s with freq := freq, total := total, ndistinct := ndistinct, treeValid := false, codesValid := false }

/-- A new tree: NODE[0..], ROOT and NNODES; TREE_VALID set, CODES_VALID cleared (41_tree_builder.md R120). -/
def State.setTree (s : State) (arena : List Node) (root : Option NodeIdx) : State :=
  { s with
    nodes := Memory.writeFrom s.nodes 0 arena, root := root, nnodes := BitVec.ofNat 10 arena.length,
    treeValid := true, codesValid := false }

/-- A new code table with its MAXLEN; CODES_VALID set (42_code_table.md R140). -/
def State.setCodes (s : State) (table : CodeTable) (maxlen : BitVec 9) : State :=
  { s with codes := some table, maxlen := maxlen, codesValid := true }

/-- A new stream of `len` bits, packed in `words` (43_encoder.md R160): the words past them are not written. -/
def State.setStream (s : State) (words : List Word) (len : Word) : State :=
  { s with bits := Memory.writeFrom s.bits 0 words, blen := len }

/-- A new output: SYM_OUT[0..] and OLEN (44_decoder.md R180). -/
def State.setOutput (s : State) (out : List Symbol) : State :=
  { s with symOut := Memory.writeFrom s.symOut 0 out, olen := BitVec.ofNat 32 out.length }

/-- The writes of CLEAR (45_control.md R205). -/
def State.clearDerived (s : State) : State :=
  { s with
    freq := Vector.replicate 256 0#32, total := 0#32, ndistinct := 0#9, treeValid := false, codesValid := false,
    root := none, nnodes := 0#10, maxlen := 0#9, ilen := 0#32, blen := 0#32, olen := 0#32 }

/-- BLEN <- 0, the clean-up of MAP and ENCODE (60_exceptions.md R222). -/
def State.dropStream (s : State) : State := { s with blen := 0#32 }

/-- BLEN <- 0 and every BITS word holds no value (60_exceptions.md R222). -/
def State.voidStream (s : State) : State := { s with blen := 0#32, bits := [] }

/-- OLEN <- 0, the clean-up of PARSE and DECODE (60_exceptions.md R222). -/
def State.dropOutput (s : State) : State := { s with olen := 0#32 }

/-- OLEN <- 0 and every SYM_OUT entry holds no value (60_exceptions.md R222). -/
def State.voidOutput (s : State) : State := { s with olen := 0#32, symOut := [] }

/-! ## Turns -/

/-- A new step sees new draws (log 1). -/
def State.tick (s : State) : State := { s with draws := s.draws + 1 }

/-- The turn at the head of the agenda is taken (log 2). -/
def State.withAgenda (s : State) (rest : List Turn) : State := { s with agenda := rest }

end Sys2Proof.Machine
end

