-- ==== Sys2Proof/Machine/Operands.lean ====
section
/-! DEFINITION. The operands of commands and host accesses: the address map (10_state.md section 2), bit packing
(00_scope.md R11), and reads of the arrays, with a fresh draw where a word holds no value (10_state.md R51). -/

namespace Sys2Proof.Machine

/-! ## The address map -/

/-- The register at word `w` of the map. -/
def regAt (w : Nat) : Option Reg :=
  match w with
  | 0 => some .id
  | 1 => some .ctrl
  | 2 => some .status
  | 3 => some .cmd
  | 4 => some .arg
  | 5 => some .ilen
  | 6 => some .blen
  | 7 => some .olen
  | 8 => some .total
  | 9 => some .ndistinct
  | 10 => some .root
  | 11 => some .nnodes
  | 12 => some .erridx
  | 13 => some .maxlen
  | 14 => some .paramSymCap
  | 15 => some .paramBitCap
  | _ => none

/-- The word number of a register: its offset divided by 4. -/
def regWord : Reg → Nat
  | .id => 0
  | .ctrl => 1
  | .status => 2
  | .cmd => 3
  | .arg => 4
  | .ilen => 5
  | .blen => 6
  | .olen => 7
  | .total => 8
  | .ndistinct => 9
  | .root => 10
  | .nnodes => 11
  | .erridx => 12
  | .maxlen => 13
  | .paramSymCap => 14
  | .paramBitCap => 15

/-- What word `w` of the address space is: the windows of 10_state.md section 2, and reserved elsewhere
(20_memory.md R64). -/
def locateWord (p : Params) (w : Nat) : Loc :=
  match regAt w with
  | some r => .reg r
  | none =>
    if 0x100 ≤ w ∧ w < 0x200 then .freq (BitVec.ofNat 8 (w - 0x100))
    else if 0x200 ≤ w ∧ w < 0x300 then .clen (BitVec.ofNat 8 (w - 0x200))
    else if 0x400 ≤ w ∧ w < 0xC00 then .codebits (BitVec.ofNat 8 ((w - 0x400) / 8)) ((w - 0x400) % 8)
    else if 0xC00 ≤ w ∧ w < 0xC00 + 511 then .nodeW (w - 0xC00)
    else if 0xE00 ≤ w ∧ w < 0xE00 + 511 then .nodeL (w - 0xE00)
    else if 0x4000 ≤ w ∧ w < 0x8000 then
      if w - 0x4000 < p.symCap then .symIn (w - 0x4000) else .reserved
    else if 0x8000 ≤ w ∧ w < 0xC000 then
      if w - 0x8000 < p.symCap then .symOut (w - 0x8000) else .reserved
    else if 0xC000 ≤ w ∧ w < 0x10000 then
      if w - 0xC000 < p.bitCap / 32 then .bits (w - 0xC000) else .reserved
    else .reserved

/-- What a byte offset reaches: bits 1:0 are ignored (20_memory.md R60). -/
def locate (p : Params) (addr : Offset) : Loc := locateWord p (addr.toNat / 4)

/-- The byte offset of a location (10_state.md section 2), for host programs. A reserved word is written 0x00040. -/
def locOffset (l : Loc) : Offset :=
  BitVec.ofNat 20 (match l with
    | .reg r => 4 * regWord r
    | .freq y => 0x00400 + 4 * y.toNat
    | .clen y => 0x00800 + 4 * y.toNat
    | .codebits y w => 0x01000 + 32 * y.toNat + 4 * w
    | .nodeW i => 0x03000 + 4 * i
    | .nodeL i => 0x03800 + 4 * i
    | .symIn i => 0x10000 + 4 * i
    | .symOut i => 0x20000 + 4 * i
    | .bits w => 0x30000 + 4 * w
    | .reserved => 0x00040)

/-! ## Bit packing (00_scope.md R11) -/

/-- Word `w` of a bit sequence: element `32·w + b` is bit `31 − b`; past the end, 0. -/
def packWord (c : Code) (w : Nat) : Word :=
  (BitVec.ofBoolListBE ((List.range 32).map (fun b => c.getD (32 * w + b) false))).cast (by simp)

/-- A bit sequence in whole words, the last one padded with zeros (43_encoder.md R160). -/
def packWords (c : Code) : List Word := (List.range ((c.length + 31) / 32)).map (packWord c)

/-- Element `j` of the sequence a word `j >> 5` holds: its bit `31 − (j mod 32)`. -/
def wordBit (v : Word) (j : Nat) : Bool := v.getMsbD (j % 32)

/-! ## Reads with fresh draws -/

/-- SYM_IN[i] as this step reads it; every read of one step sees one value (43_encoder.md R162; log 1). -/
def State.symInAt (s : State) (i : Nat) : Symbol := (Memory.read s.symIn i).getD (Config.freeSymbol s.draws i)

/-- SYM_IN[0..ILEN−1]. -/
def State.inputSymbols (s : State) : List Symbol := (List.range s.ilen.toNat).map s.symInAt

/-- STREAM[j] as this step reads it: bit `31 − (j mod 32)` of BITS[j >> 5] (10_state.md R44), a draw of its own where
that word holds no value (R51). -/
def State.streamBit (s : State) (j : Nat) : Bool :=
  wordBit ((Memory.read s.bits (j / 32)).getD (Config.freeWord s.draws j)) j

/-- STREAM[0..BLEN−1]. -/
def State.streamBits (s : State) : Code := (List.range s.blen.toNat).map s.streamBit

/-- CODE[y] as this step reads it. -/
def State.codeAt (s : State) (y : Symbol) : Code :=
  match s.codes with
  | some t => entry t y
  | none => Config.freeCode s.draws y

/-- NODE[i] as this step reads it. -/
def State.nodeAt (s : State) (i : NodeIdx) : Node :=
  match Memory.read s.nodes i.toNat with
  | some x => x
  | none =>
    { isLeaf := (Config.freeNode s.draws i).1, sym := (Config.freeNode s.draws i).2.1,
      weight := (Config.freeNode s.draws i).2.2.1, left := (Config.freeNode s.draws i).2.2.2.1,
      right := (Config.freeNode s.draws i).2.2.2.2 }

end Sys2Proof.Machine
end

