-- ==== Sys2Proof/Machine/Flags.lean ====
section
/-! DEFINITION. STATUS (10_state.md R24, R25), the error codes of 60_exceptions.md R220, the IRQ line (R49). -/

namespace Sys2Proof.Machine

/-- The numeric code of an error kind (R220). -/
def ErrorKind.code : ErrorKind → BitVec 4
  | .unknownSymbol => 1#4
  | .malformedStream => 2#4
  | .invalidFrequencyTable => 3#4
  | .countOverflow => 4#4
  | .capacityExceeded => 5#4
  | .notReady => 6#4
  | .illegalCommand => 7#4

/-- STATUS.ERRCODE (R24). -/
def State.errCode (s : State) : BitVec 4 :=
  match s.error with
  | none => 0#4
  | some k => k.code

/-- STATUS.ERR: always equals ERRCODE ≠ 0 (R24). -/
def State.err (s : State) : Bool := s.errCode != 0#4

/-- A word with bit `i` equal to `b` and every other bit 0. -/
def flagBit (b : Bool) (i : Nat) : Word := if b then 1#32 <<< i else 0#32

/-- STATUS as the host reads it (R24): bit 7 and bits 31:12 are 0. -/
def State.statusWord (s : State) : Word :=
  flagBit s.busy 0 ||| flagBit s.done 1 ||| flagBit s.err 2 ||| flagBit s.overrun 3 |||
  flagBit s.accessErr 4 ||| flagBit s.treeValid 5 ||| flagBit s.codesValid 6 ||| (zext32 s.errCode <<< 8)

/-- A host write of `v` to STATUS (R25). -/
def State.clearFlags (s : State) (v : Word) : State :=
  { s with
    done := s.done && !v.getLsbD 1, overrun := s.overrun && !v.getLsbD 3, accessErr := s.accessErr && !v.getLsbD 4 }

/-- CTRL as the host reads it (R23): SOFT_RESET and the reserved bits read 0. -/
def State.ctrlWord (s : State) : Word := flagBit s.irqEn 0

/-- The output line IRQ (R49). -/
def State.irq (s : State) : Bool := s.irqEn && s.done

/-- ROOT as the host reads it (R33). -/
def State.rootWord (s : State) : Word :=
  match s.root with
  | none => 0#32
  | some r => 0x80000000#32 ||| zext32 r

end Sys2Proof.Machine
end

