-- ==== Sys2Proof/Machine/Bus.lean ====
section
/-! DEFINITION. The host bus: what a 32-bit read returns and what a 32-bit write does (20_memory.md R60 to R66;
10_state.md R22 to R44), with the rules for a busy block (70_reset_and_hazards.md R254 to R256). -/

namespace Sys2Proof.Machine

/-- The value of a register (R22 to R37). -/
def State.readReg (s : State) (r : Reg) : Word :=
  match r with
  | .id => Config.idWord
  | .ctrl => s.ctrlWord
  | .status => s.statusWord
  | .cmd => s.cmdLast
  | .arg => s.arg
  | .ilen => s.ilen
  | .blen => s.blen
  | .olen => s.olen
  | .total => s.total
  | .ndistinct => zext32 s.ndistinct
  | .root => s.rootWord
  | .nnodes => zext32 s.nnodes
  | .erridx => s.errIdx
  | .maxlen => zext32 s.maxlen
  | .paramSymCap => BitVec.ofNat 32 s.params.symCap
  | .paramBitCap => BitVec.ofNat 32 s.params.bitCap

/-- The fresh draw of a host read (log 1). -/
def State.readDraw (s : State) : Word := Config.freeWord s.draws 0

/-- The NODE_L word of a node (R41). -/
def Node.linkWord (x : Node) : Word :=
  if x.isLeaf then 0x80000000#32 ||| zext32 x.sym else (zext32 x.right <<< 16) ||| zext32 x.left

/-- A read of node `i` is meaningful only when TREE_VALID = 1 and i < NNODES (R41). -/
def State.nodeReadable (s : State) (i : Nat) : Bool := s.treeValid && decide (i < s.nnodes.toNat)

/-- The value of a location when the block is idle (R39 to R44; 20_memory.md R64). -/
def State.readLoc (s : State) (l : Loc) : Word :=
  match l with
  | .reg r => s.readReg r
  | .freq y => entry s.freq y
  | .clen y => if s.codesValid then BitVec.ofNat 32 (s.codeAt y).length else s.readDraw
  | .codebits y w => if s.codesValid then packWord (s.codeAt y) w else s.readDraw
  | .nodeW i => if s.nodeReadable i then (s.nodeAt (BitVec.ofNat 9 i)).weight else s.readDraw
  | .nodeL i => if s.nodeReadable i then (s.nodeAt (BitVec.ofNat 9 i)).linkWord else s.readDraw
  | .symIn i => zext32 (s.symInAt i)
  | .symOut i =>
    if i < s.olen.toNat then zext32 ((Memory.read s.symOut i).getD (Config.freeSymbol s.draws i)) else s.readDraw
  | .bits w => (Memory.read s.bits w).getD s.readDraw
  | .reserved => 0#32

/-- What a host read reaches even while BUSY = 1 (70_reset_and_hazards.md R255). -/
def readableBusy (l : Loc) : Bool :=
  match l with
  | .reg .id => true
  | .reg .ctrl => true
  | .reg .status => true
  | .reg .cmd => true
  | .reg .paramSymCap => true
  | .reg .paramBitCap => true
  | .reserved => true
  | _ => false

/-- The word `MemRead(addr, 4)` returns (20_memory.md R62). -/
def State.busRead (s : State) (addr : Offset) : Word :=
  if s.busy && !readableBusy (locate s.params addr) then s.readDraw else s.readLoc (locate s.params addr)

/-- A write to a busy-protected location (70_reset_and_hazards.md R255): refused with ACCESS_ERR while BUSY = 1. -/
def State.protectedWrite (s t : State) : State := if s.busy then { s with accessErr := true } else t

/-- A host write of `v` to a location (20_memory.md R63). -/
def State.writeLoc (s : State) (l : Loc) (v : Word) : State :=
  match l with
  | .reg .ctrl => if v.getLsbD 1 then s.hardReset else { s with irqEn := v.getLsbD 0 }
  | .reg .status => s.clearFlags v
  | .reg .cmd => if s.busy then { s with overrun := true } else s.accept v
  | .reg .arg => s.protectedWrite { s with arg := v }
  | .reg .ilen => s.protectedWrite { s with ilen := v }
  | .reg .blen => s.protectedWrite { s with blen := v }
  | .symIn i => s.protectedWrite { s with symIn := Memory.write s.symIn i (v.setWidth 8) }
  | .bits w => s.protectedWrite { s with bits := Memory.write s.bits w v }
  | _ => s

/-- `MemWrite(addr, 4, v)` (20_memory.md R63). -/
def State.busWrite (s : State) (addr : Offset) (v : Word) : State := s.writeLoc (locate s.params addr) v

/-- A host step (00_scope.md R7): one access; any width but 4 bytes is refused (20_memory.md R61). -/
def hostStep (a : Access) (s : State) : Host.Outcome State Fault Refusal :=
  match a with
  | .read bytes addr =>
    if bytes = 4 then .next { s with readData := some (s.busRead addr) } else .refused (.accessWidth bytes)
  | .write bytes addr v =>
    if bytes = 4 then .next (s.busWrite addr v) else .refused (.accessWidth bytes)

end Sys2Proof.Machine
end

