-- ==== Sys2Proof/Machine/CodeTable.lean ====
section
/-! DEFINITION. GEN (42_code_table.md R140 to R145): the walk of the tree into the code table. -/

namespace Sys2Proof.Machine

/-- `walk(n, p)` of R140: the symbols of the leaves below node `n`, each with its path, in visiting order. `depth`
bounds the walk by the size of the node store (log 10). -/
def walk (node : NodeIdx → Node) (depth : Nat) (n : NodeIdx) (p : Code) : List (Symbol × Code) :=
  match depth with
  | 0 => []
  | depth + 1 =>
    if (node n).isLeaf then [((node n).sym, p)]
    else walk node depth (node n).left (p ++ [false]) ++ walk node depth (node n).right (p ++ [true])

/-- The code assignments of R140: none for the empty tree, the code 0 for a one-leaf tree (R145), else the walk. -/
def codeAssignments (node : NodeIdx → Node) (root : Option NodeIdx) : List (Symbol × Code) :=
  match root with
  | none => []
  | some r => if (node r).isLeaf then [((node r).sym, [false])] else walk node Config.nodeCap r []

/-- The table the assignments leave: the last one to a symbol stands, and no assignment leaves the empty sequence. -/
def codeTableOf (as : List (Symbol × Code)) : CodeTable := tabulate (fun y => (as.reverse.lookup y).getD [])

/-- The greatest CLEN[s] over all s (R140). -/
def longestCode (t : CodeTable) : Nat := (symbols.map (fun y => (entry t y).length)).foldl max 0

/-- The body of GEN (R140). -/
def genBody (s : State) : Body :=
  if s.treeValid then
    .ok (s.setCodes (codeTableOf (codeAssignments s.nodeAt s.root))
      (BitVec.ofNat 9 (longestCode (codeTableOf (codeAssignments s.nodeAt s.root)))))
  else .raised s .notReady 0#32

/-- GEN (R140). -/
def execGen (s : State) : Host.Outcome State Fault Refusal := (genBody s).finish

end Sys2Proof.Machine
end

