-- ==== Sys2Proof/Machine/Control.lean ====
section
/-! DEFINITION. NOP and CLEAR (45_control.md R203, R205). -/

namespace Sys2Proof.Machine

/-- NOP: `complete` (R203). -/
def execNop (s : State) : Host.Outcome State Fault Refusal := Body.finish (.ok s)

/-- CLEAR (R205). -/
def execClear (s : State) : Host.Outcome State Fault Refusal := Body.finish (.ok s.clearDerived)

end Sys2Proof.Machine
end

