-- ==== Sys2Proof/Machine/TreeBuilder.lean ====
section
/-! DEFINITION. BUILD (41_tree_builder.md R120 to R124): the priority-queue merge engine. -/

namespace Sys2Proof.Machine

/-- The leaf node of symbol `y` with count `c` (R120). -/
def leafNode (y : Symbol) (c : Word) : Node :=
  { isLeaf := true, sym := y, weight := c, left := 0#9, right := 0#9 }

/-- The internal node over the nodes `a` (removed first) and `b` (removed second) (R120, R123). A queue element is a
node's weight and its index. -/
def internalNode (a b : Word × Nat) : Node :=
  { isLeaf := false, sym := 0#8, weight := a.1 + b.1, left := BitVec.ofNat 9 a.2, right := BitVec.ofNat 9 b.2 }

/-- One leaf per symbol in the table, in ascending symbol order (R120). -/
def leavesOf (freq : Vector Word 256) : List Node :=
  (symbols.filter (fun y => entry freq y != 0#32)).map (fun y => leafNode y (entry freq y))

/-- The queue's order: least (WEIGHT, index) first (R122). -/
def queueLess (a b : Word × Nat) : Bool := decide (a.1 < b.1) || (a.1 == b.1 && decide (a.2 < b.2))

/-- The least element of the queue and the queue without it. -/
def takeLeast (q : List (Word × Nat)) : Option ((Word × Nat) × List (Word × Nat)) :=
  match q with
  | [] => none
  | e :: q =>
    match takeLeast q with
    | none => some (e, [])
    | some (m, r) => if queueLess e m then some (e, m :: r) else some (m, e :: r)

/-- At most `n` rounds of the loop of R120 while the queue holds two nodes or more: remove the least `a`, then the
least `b`, append their parent to the arena and to the queue. -/
def mergeRounds (n : Nat) (arena : List Node) (q : List (Word × Nat)) : List Node × List (Word × Nat) :=
  match n with
  | 0 => (arena, q)
  | n + 1 =>
    match takeLeast q with
    | none => (arena, q)
    | some (a, q₁) =>
      match takeLeast q₁ with
      | none => (arena, q)
      | some (b, q₂) =>
        mergeRounds n (arena ++ [internalNode a b]) (((internalNode a b).weight, arena.length) :: q₂)

/-- The queue of the leaves: every leaf with its index (R120). -/
def leafQueue (leaves : List Node) : List (Word × Nat) := leaves.zipIdx.map (fun e => (e.1.weight, e.2))

/-- The arena and the queue at the end of BUILD's loop, k being the number of leaves (log 9). -/
def buildTree (freq : Vector Word 256) : List Node × List (Word × Nat) :=
  mergeRounds (leavesOf freq).length (leavesOf freq) (leafQueue (leavesOf freq))

/-- NODE[0..NNODES−1] as BUILD computes it from FREQ. -/
def treeArena (freq : Vector Word 256) : List Node := (buildTree freq).1

/-- ROOT as BUILD computes it from FREQ: the one node left in the queue, none for the empty table. -/
def treeRoot (freq : Vector Word 256) : Option NodeIdx := (buildTree freq).2.head?.map (fun e => BitVec.ofNat 9 e.2)

/-- The body of BUILD (R120); it raises no error. -/
def buildBody (s : State) : Body := .ok (s.setTree (treeArena s.freq) (treeRoot s.freq))

/-- BUILD (R120). -/
def execBuild (s : State) : Host.Outcome State Fault Refusal := (buildBody s).finish

end Sys2Proof.Machine
end

