-- ==== Sys2Proof/Machine/Decoder.lean ====
section
/-! DEFINITION. PARSE and DECODE (44_decoder.md R180 to R184). -/

namespace Sys2Proof.Machine

/-- The matcher (R181): the symbol whose code the candidate is. -/
def matchCode (code : Symbol → Code) (cand : Code) : Option Symbol := symbols.find? (fun y => code y == cand)

/-- The loop of R180 over the bits from position `j` on: `start` is where the candidate `cand` began, `out` the
symbols emitted, `total` the count check's N; the symbols at the end, or the ERRIDX of MalformedStream. -/
def scanBits (code : Symbol → Code) (total : Nat) (bits : Code) (j start : Nat) (cand : Code) (out : List Symbol) :
    Except Nat (List Symbol) :=
  match bits with
  | [] =>
    if cand ≠ [] then .error start
    else if out.length ≠ total then .error j
    else .ok out
  | b :: rest =>
    match matchCode code (cand ++ [b]) with
    | some y =>
      if out.length = total then .error (if cand = [] then j else start)
      else scanBits code total rest (j + 1) (if cand = [] then j else start) [] (out ++ [y])
    | none => scanBits code total rest (j + 1) (if cand = [] then j else start) (cand ++ [b]) out

/-- The one symbol with CLEN ≠ 0 of a one-symbol table (R180); a free value in a state whose table has none, which no
run reaches (log 11). -/
def State.soleSymbol (s : State) : Symbol :=
  (symbols.find? (fun y => (s.codeAt y).length != 0)).getD (Config.freeSymbol s.draws 0)

/-- The body of PARSE with its clean-up (R180; 60_exceptions.md R222). SYM_OUT is written when the loop has ended
without error: a raise inside it leaves no SYM_OUT entry with a value (log 12). -/
def parseBody (s : State) : Body :=
  if s.codesValid then
    if s.params.bitCap < s.blen.toNat then .raised s.dropOutput .capacityExceeded s.blen
    else if s.ndistinct = 0#9 then
      if s.blen = 0#32 then .ok s.dropOutput else .raised s.dropOutput .invalidFrequencyTable s.blen
    else if s.params.symCap < s.total.toNat then .raised s.dropOutput .capacityExceeded s.total
    else if s.ndistinct = 1#9 then .ok (s.setOutput (List.replicate s.total.toNat s.soleSymbol))
    else
      match scanBits s.codeAt s.total.toNat s.streamBits 0 0 [] [] with
      | .ok out => .ok (s.setOutput out)
      | .error idx => .raised s.voidOutput .malformedStream (BitVec.ofNat 32 idx)
  else .raised s.dropOutput .notReady 0#32

/-- PARSE (R180). -/
def execParse (s : State) : Host.Outcome State Fault Refusal := (parseBody s).finish

/-- The body of DECODE (R184): BUILD, GEN, PARSE. -/
def decodeBody (s : State) : Body := ((buildBody s).andThen genBody).andThen parseBody

/-- DECODE (R184). -/
def execDecode (s : State) : Host.Outcome State Fault Refusal := (decodeBody s).finish

end Sys2Proof.Machine
end

