-- ==== Sys2Proof/Machine/Frequency.lean ====
section
/-! DEFINITION. FREQ_SET and FREQ_COUNT (40_frequency.md R100, R102). -/

namespace Sys2Proof.Machine

/-- The TOTAL FREQ_SET would leave, on naturals (R100). -/
def State.totalWith (s : State) (y : Symbol) (c : Word) : Nat :=
  s.total.toNat - (entry s.freq y).toNat + c.toNat

/-- The body of FREQ_SET (R100). -/
def freqSetBody (y : Symbol) (s : State) : Body :=
  if s.arg = 0#32 then .raised s .invalidFrequencyTable (zext32 y)
  else if 2 ^ 32 - 1 < s.totalWith y s.arg then .raised s .countOverflow (zext32 y)
  else
    .ok (s.setFreq (s.freq.set y.toNat s.arg y.isLt) (BitVec.ofNat 32 (s.totalWith y s.arg))
      (if entry s.freq y = 0#32 then s.ndistinct + 1#9 else s.ndistinct))

/-- FREQ_SET (R100). -/
def execFreqSet (y : Symbol) (s : State) : Host.Outcome State Fault Refusal := (freqSetBody y s).finish

/-- The counts of a symbol sequence: F of R102. -/
def countTable (syms : List Symbol) : Vector Word 256 := tabulate (fun y => BitVec.ofNat 32 (syms.count y))

/-- How many symbols occur in a symbol sequence. -/
def countDistinct (syms : List Symbol) : Nat := symbols.countP (fun y => syms.count y != 0)

/-- The body of FREQ_COUNT (R102). -/
def freqCountBody (s : State) : Body :=
  if s.params.symCap < s.ilen.toNat then .raised s .capacityExceeded s.ilen
  else .ok (s.setFreq (countTable s.inputSymbols) s.ilen (BitVec.ofNat 9 (countDistinct s.inputSymbols)))

/-- FREQ_COUNT (R102). -/
def execFreqCount (s : State) : Host.Outcome State Fault Refusal := (freqCountBody s).finish

end Sys2Proof.Machine
end

