-- ==== Sys2Proof/Machine/Encoder.lean ====
section
/-! DEFINITION. MAP and ENCODE (43_encoder.md R160 to R164). -/

namespace Sys2Proof.Machine

/-- The loop of R160 over the symbols from index `i` on, at bit position `pos`: the bits it writes, or the error and
the index it raises. -/
def mapSymbols (code : Symbol → Code) (bitCap : Nat) (syms : List Symbol) (i pos : Nat) :
    Except (ErrorKind × Nat) Code :=
  match syms with
  | [] => .ok []
  | y :: rest =>
    if (code y).length = 0 then .error (.unknownSymbol, i)
    else if bitCap < pos + (code y).length then .error (.capacityExceeded, i)
    else
      match mapSymbols code bitCap rest (i + 1) (pos + (code y).length) with
      | .ok c => .ok (code y ++ c)
      | .error e => .error e

/-- The body of MAP with its clean-up (R160; 60_exceptions.md R222). The words are written when the loop has ended
without error: a raise inside it leaves no BITS word with a value (log 12). -/
def mapBody (s : State) : Body :=
  if s.codesValid then
    if s.params.symCap < s.ilen.toNat then .raised s.dropStream .capacityExceeded s.ilen
    else
      match mapSymbols s.codeAt s.params.bitCap s.inputSymbols 0 0 with
      | .ok c => .ok (s.setStream (packWords c) (BitVec.ofNat 32 c.length))
      | .error e => .raised s.voidStream e.1 (BitVec.ofNat 32 e.2)
  else .raised s.dropStream .notReady 0#32

/-- MAP (R160). -/
def execMap (s : State) : Host.Outcome State Fault Refusal := (mapBody s).finish

/-- The body of ENCODE (R162): FREQ_COUNT, BUILD, GEN, MAP; on any error BLEN <- 0. -/
def encodeBody (s : State) : Body :=
  ((((freqCountBody s).andThen buildBody).andThen genBody).andThen mapBody).cleanup State.dropStream

/-- ENCODE (R162). -/
def execEncode (s : State) : Host.Outcome State Fault Refusal := (encodeBody s).finish

end Sys2Proof.Machine
end

