-- ==== Sys2Proof/Machine/Dispatch.lean ====
section
/-! DEFINITION. One arm per command (30_encoding.md R82). -/

namespace Sys2Proof.Machine

/-- The engine's execution of a decoded command (45_control.md R201). -/
def exec (i : Instr) (s : State) : Host.Outcome State Fault Refusal :=
  match i with
  | .nop => Sys2Proof.Machine.execNop s
  | .clear => Sys2Proof.Machine.execClear s
  | .freqSet sym => Sys2Proof.Machine.execFreqSet sym s
  | .freqCount => Sys2Proof.Machine.execFreqCount s
  | .build => Sys2Proof.Machine.execBuild s
  | .gen => Sys2Proof.Machine.execGen s
  | .map => Sys2Proof.Machine.execMap s
  | .parse => Sys2Proof.Machine.execParse s
  | .encode => Sys2Proof.Machine.execEncode s
  | .decode => Sys2Proof.Machine.execDecode s

end Sys2Proof.Machine
end

