-- ==== Sys2Proof/Machine/Engine.lean ====
section
/-! DEFINITION. The engine's step (45_control.md R201; 30_encoding.md R83, R84) and one turn of either agent. -/

namespace Sys2Proof.Machine

/-- The engine step: decode the word in PENDING and run its command; an illegal word completes with IllegalCommand
and ERRIDX = the word. With PENDING empty the engine has no step (60_exceptions.md R233). -/
def engineStep (s : State) : Host.Outcome State Fault Refusal :=
  match s.pending with
  | none => .next s
  | some w =>
    match decode w with
    | .ok i => exec i s
    | .error _ => .next (s.raise .illegalCommand w)

/-- One turn (00_scope.md R7; 70_reset_and_hazards.md R250). -/
def takeTurn (t : Turn) (s : State) : Host.Outcome State Fault Refusal :=
  match t with
  | .host a => hostStep a s
  | .engine => engineStep s
  | .rst => .next s.hardReset

/-- A step with nothing left on the agenda: a pending command is executed (fairness, 45_control.md R201); an idle
block keeps its state (60_exceptions.md R233). -/
def quietStep (s : State) : Host.Outcome State Fault Refusal :=
  if s.busy then engineStep s.tick else .next s

/-- A command word issued to the block and the engine's turn next: how a host write to CMD brings a command to
execution (45_control.md R200, R201; log 3). -/
def State.issueWord (s : State) (w : Word) : State := (s.accept w).withAgenda (.engine :: s.agenda)

end Sys2Proof.Machine
end

