-- ==== Sys2Proof/Machine/Step.lean ====
section
/-! DEFINITION. One step of the machine: the next turn of its agenda. -/

namespace Sys2Proof.Machine

/-- One step: the turn at the head of the agenda is taken, with fresh draws (log 1, log 2). -/
def step (s : State) : Host.Outcome State Fault Refusal :=
  match s.agenda with
  | [] => quietStep s
  | t :: rest => takeTurn t (s.tick.withAgenda rest)

/-- `s` with the command word `w` in PENDING, so that the very next step runs it (log 3). -/
def State.withFetchWord (s : State) (nbits w : Nat) : State := s.issueWord (tableWord nbits w)

end Sys2Proof.Machine
end

