-- ==== Sys2Proof/Machine/HostProgram.lean ====
section
/-! DEFINITION. The host statements of 30_encoding.md R85 as turns, so that a host program is an agenda. -/

namespace Sys2Proof.Machine

/-- `WR <loc>, <v>`: MemWrite of one word. -/
def wrTurn (l : Loc) (v : Word) : Turn := .host (.write 4 (locOffset l) v)

/-- `RD <loc>`: MemRead of one word. -/
def rdTurn (l : Loc) : Turn := .host (.read 4 (locOffset l))

/-- `WAIT`: STATUS is read `polls` times before the engine's step and once after it, when BUSY reads 0 (log 20). -/
def waitTurns (polls : Nat) : List Turn :=
  List.replicate polls (rdTurn (.reg .status)) ++ [.engine, rdTurn (.reg .status)]

/-- `<mnemonic>` and `FREQ_SET <s>, <count>`: the writes to ARG and CMD. -/
def hostCommandTurns : HostCommand → List Turn
  | .word i => [wrTurn (.reg .cmd) (encode i)]
  | .freqSet y count => [wrTurn (.reg .arg) count, wrTurn (.reg .cmd) (encode (.freqSet y))]

/-- The turns a host statement stands for (R85). -/
def hostStmtTurns : HostStmt → List Turn
  | .wr l v => [wrTurn l v]
  | .rd l => [rdTurn l]
  | .wait polls => waitTurns polls
  | .issue c => hostCommandTurns c
  | .run c polls => hostCommandTurns c ++ waitTurns polls
  | .loadSym text =>
    text.zipIdx.map (fun e => wrTurn (.symIn e.2) (zext32 e.1)) ++
      [wrTurn (.reg .ilen) (BitVec.ofNat 32 text.length)]
  | .loadBits blen words => words.zipIdx.map (fun e => wrTurn (.bits e.2) e.1) ++ [wrTurn (.reg .blen) blen]

/-- The agenda of a host program. -/
def hostProgram (p : List HostStmt) : List Turn := p.flatMap hostStmtTurns

end Sys2Proof.Machine
end

