-- ==== Sys2Proof/Safety.lean ====
section
/-! DEFINITION. What counts as a safe run, and the invariants of the machine in the terms claims use: 10_state.md R45
to R48 and R51, 45_control.md R200, 60_exceptions.md R220. -/

namespace Sys2Proof.Machine

/-! ## Safe runs -/

/-- The step answers a next state. -/
def State.StepsOn (s : State) : Prop := ∃ t, step s = .next t

/-- Every host access to come is a 32-bit access (20_memory.md R61). -/
def State.AgendaOk (s : State) : Prop := ∀ a, Turn.host a ∈ s.agenda → a.wf = true

/-! ## What FREQ determines -/

/-- FREQ[0] + ... + FREQ[255], on naturals (R45). -/
def freqSum (freq : Vector Word 256) : Nat := (symbols.map (fun y => (entry freq y).toNat)).sum

/-- The number of symbols in the table (R45). -/
def distinctCount (freq : Vector Word 256) : Nat := symbols.countP (fun y => entry freq y != 0#32)

/-- Node `i` of an arena; indices past its end are never asked for (41_tree_builder.md R121). -/
def arenaNode (arena : List Node) (i : NodeIdx) : Node := arena.getD i.toNat (leafNode 0#8 0#32)

/-- The code table GEN computes from the tree BUILD computes from FREQ (41_tree_builder.md R126). -/
def codesOf (freq : Vector Word 256) : CodeTable :=
  codeTableOf (codeAssignments (arenaNode (treeArena freq)) (treeRoot freq))

/-! ## Invariants -/

/-- TOTAL and NDISTINCT match FREQ (R45); that the sum is at most 2^32 − 1 is that TOTAL holds it. -/
abbrev State.FreqOk (s : State) : Prop := s.total.toNat = freqSum s.freq ∧ s.ndistinct.toNat = distinctCount s.freq

/-- While a command is pending, CMD_LAST is its word and DONE, ERRCODE are as acceptance left them (R200). -/
abbrev State.LatchOk (s : State) : Prop :=
  s.pending = none ∨ (s.pending = some s.cmdLast ∧ s.done = false ∧ s.error = none)

/-- ERRIDX is 0 unless the last command ended with an error (R36). -/
abbrev State.ErrIdxOk (s : State) : Prop := s.error = none → s.errIdx = 0#32

/-- The node store, ROOT and NNODES hold the tree of the current FREQ (R46). -/
abbrev State.HoldsTree (s : State) : Prop :=
  (∀ i, i < (treeArena s.freq).length → Memory.read s.nodes i = (treeArena s.freq)[i]?) ∧
  s.root = treeRoot s.freq ∧ s.nnodes.toNat = (treeArena s.freq).length

/-- The code table and MAXLEN are those of the current tree (R47, R37). -/
abbrev State.HoldsCodes (s : State) : Prop :=
  s.codes = some (codesOf s.freq) ∧ s.maxlen.toNat = longestCode (codesOf s.freq)

/-- TREE_VALID is 1 only when the node store holds the tree of FREQ (R46). -/
abbrev State.TreeOk (s : State) : Prop := s.treeValid = true → s.HoldsTree

/-- CODES_VALID is 1 only when the tree is valid and the code table is its table (R47). -/
abbrev State.CodesOk (s : State) : Prop := s.codesValid = true → s.treeValid = true ∧ s.HoldsCodes

/-- Every array is in canonical form and within its bounds (R41 to R44). -/
abbrev State.MemOk (s : State) : Prop :=
  (Memory.wf s.nodes ∧ Memory.below s.nodes Config.nodeCap) ∧
  (Memory.wf s.symIn ∧ Memory.below s.symIn s.params.symCap) ∧
  (Memory.wf s.symOut ∧ Memory.below s.symOut s.params.symCap) ∧
  (Memory.wf s.bits ∧ Memory.below s.bits (s.params.bitCap / 32))

/-- SYM_OUT[0..OLEN−1] hold values, within capacity (R30, R43). -/
abbrev State.OutputOk (s : State) : Prop :=
  s.olen.toNat ≤ s.params.symCap ∧ ∀ i, i < s.olen.toNat → Memory.read s.symOut i ≠ none

/-- The machine's invariant. -/
structure State.Inv (s : State) : Prop where
  params : s.params.legal = true
  freq : s.FreqOk
  latch : s.LatchOk
  errIdx : s.ErrIdxOk
  tree : s.TreeOk
  codes : s.CodesOk
  mem : s.MemOk
  output : s.OutputOk

end Sys2Proof.Machine
end

