-- ==== Sys2Proof/Certificates/Slice0/Obligations.lean ====
section
/-! DEFINITION. The statements for the provers. `Claims` holds the notions they use that the machine does not. -/

open Sys2Proof Sys2Proof.Machine

namespace Sys2Proof.Claims

/-- The words 30_encoding.md R84 calls illegal, by the fields 31:24, 23:8 and 7:0. -/
def Illegal (w : Word) : Prop :=
  9 < w.toNat / 2 ^ 24 ∨ w.toNat / 2 ^ 8 % 2 ^ 16 ≠ 0 ∨ (w.toNat / 2 ^ 24 ≠ 2 ∧ w.toNat % 2 ^ 8 ≠ 0)

/-- A host write that is a soft reset (70_reset_and_hazards.md R251). -/
def SoftReset (p : Params) (a : Access) : Prop :=
  ∃ addr v, a = .write 4 addr v ∧ locate p addr = .reg .ctrl ∧ v.getLsbD 1 = true

/-- WEIGHT of node `i` of an arena, on naturals. -/
def weightOf (arena : List Node) (i : Nat) : Nat := (arena[i]?.map (fun x => x.weight.toNat)).getD 0

/-- Node `i` is in the queue when node `n` is created: it is older, and no internal node older than `n` has it as a
child (41_tree_builder.md R120). -/
def InQueue (arena : List Node) (n i : Nat) : Prop :=
  i < n ∧ ∀ m x, m < n → arena[m]? = some x → x.isLeaf = false → x.left.toNat ≠ i ∧ x.right.toNat ≠ i

/-- `a` is the element of `P` with the least (WEIGHT, index) (R122). -/
def IsLeast (arena : List Node) (P : Nat → Prop) (a : Nat) : Prop :=
  P a ∧ ∀ j, P j → j ≠ a →
    weightOf arena a < weightOf arena j ∨ (weightOf arena a = weightOf arena j ∧ a < j)

/-- The node a path of branch bits leads to from node `n`: LEFT on 0, RIGHT on 1, and no step out of a leaf
(42_code_table.md R141). -/
def follow (node : NodeIdx → Node) (n : NodeIdx) (p : Code) : Option NodeIdx :=
  match p with
  | [] => some n
  | b :: p =>
    if (node n).isLeaf then none else follow node (if b then (node n).right else (node n).left) p

/-- The tree-walk decoder of 44_decoder.md R182, at node `pos`, with the count check of R180. -/
def treeWalk (node : NodeIdx → Node) (root : NodeIdx) (total : Nat) (bits : Code) (j start : Nat) (pos : NodeIdx)
    (out : List Symbol) : Except Nat (List Symbol) :=
  match bits with
  | [] =>
    if pos ≠ root then .error start
    else if out.length ≠ total then .error j
    else .ok out
  | b :: rest =>
    if (node (if b then (node pos).right else (node pos).left)).isLeaf then
      if out.length = total then .error (if pos = root then j else start)
      else
        treeWalk node root total rest (j + 1) (if pos = root then j else start) root
          (out ++ [(node (if b then (node pos).right else (node pos).left)).sym])
    else
      treeWalk node root total rest (j + 1) (if pos = root then j else start)
        (if b then (node pos).right else (node pos).left) out

/-- The receiving host of 40_frequency.md R101 after its CLEAR: for each pair, ARG and FREQ_SET. -/
def loadPairs (ps : List (Symbol × Word)) (s : State) : Host.Outcome State Fault Refusal :=
  match ps with
  | [] => .next s
  | p :: ps =>
    match exec (.freqSet p.1) { s with arg := p.2 } with
    | .next t => loadPairs ps t
    | .fault r => .fault r
    | .refused r => .refused r

/-- `n` steps in a row. -/
def runSteps (n : Nat) (s : State) : Host.Outcome State Fault Refusal :=
  match n with
  | 0 => .next s
  | n + 1 =>
    match step s with
    | .next t => runSteps n t
    | .fault r => .fault r
    | .refused r => .refused r

/-- FREQ[s] × |c(s)| summed over s: the weighted length of an assignment of codes (41_tree_builder.md R125). -/
def weightedLength (freq : Vector Word 256) (c : Symbol → Code) : Nat :=
  (symbols.map (fun y => (entry freq y).toNat * (c y).length)).sum

/-- No code of a symbol of the table is a prefix of another's (42_code_table.md R143). -/
def PrefixFree (freq : Vector Word 256) (c : Symbol → Code) : Prop :=
  ∀ y z, entry freq y ≠ 0#32 → entry freq z ≠ 0#32 → y ≠ z → ¬ c y <+: c z

/-- The error kinds a command can end with (60_exceptions.md R220, R221; 43_encoder.md R163; 44_decoder.md R182). -/
def mayRaise : Instr → List ErrorKind
  | .nop => []
  | .clear => []
  | .freqSet _ => [.invalidFrequencyTable, .countOverflow]
  | .freqCount => [.capacityExceeded]
  | .build => []
  | .gen => [.notReady]
  | .map => [.notReady, .capacityExceeded, .unknownSymbol]
  | .parse => [.notReady, .capacityExceeded, .invalidFrequencyTable, .malformedStream]
  | .encode => [.capacityExceeded]
  | .decode => [.capacityExceeded, .invalidFrequencyTable, .malformedStream]

end Sys2Proof.Claims

open Sys2Proof.Claims

/-! ## Encoding (30_encoding.md) -/

/-- Decoding a word gives a command exactly when the word is that command's encoding, every operand at every value;
rests on the table of R82 and the checks of R83. -/
def Obligations.DecodesExactlyTheEncodedWords : Prop :=
  ∀ (i : Instr) (w : Word), decode w = .ok i ↔ w = encode i

/-- R82: the ten command words, written out from the table, and its reserved opcodes. -/
def Obligations.CommandWordTable : Prop :=
  decode 0x00000000#32 = .ok .nop ∧ decode 0x01000000#32 = .ok .clear ∧
  (∀ y : Symbol, decode (BitVec.ofNat 32 (0x02000000 + y.toNat)) = .ok (.freqSet y)) ∧
  decode 0x03000000#32 = .ok .freqCount ∧ decode 0x04000000#32 = .ok .build ∧ decode 0x05000000#32 = .ok .gen ∧
  decode 0x06000000#32 = .ok .map ∧ decode 0x07000000#32 = .ok .parse ∧ decode 0x08000000#32 = .ok .encode ∧
  decode 0x09000000#32 = .ok .decode ∧ ∀ w : Word, 0x0A ≤ w.toNat / 2 ^ 24 → ∃ e, decode w = .error e

/-- R83, R84: a pending word is either illegal, and the engine step completes it with IllegalCommand, ERRIDX = the
word and no other state change than the completion, or it is one command's word and the engine step runs that
command. -/
def Obligations.PendingWordIsCommandOrIllegal : Prop :=
  ∀ (s : State) (w : Word), s.pending = some w →
    (Illegal w → engineStep s =
      .next { s with error := some .illegalCommand, errIdx := w, pending := none, done := true }) ∧
    (¬ Illegal w → ∃ i, w = encode i ∧ (∀ j, w = encode j → j = i) ∧ engineStep s = exec i s)

/-! ## The step -/

/-- A step whose turn is the engine's runs the command of the word in PENDING; with no turn left the pending command
runs too (log 2: the agenda is the model's own, as is the draw counter of log 1). -/
def Obligations.StepRunsTheDecodedCommand : Prop :=
  ∀ (s : State) (w : Word) (i : Instr), s.pending = some w → decode w = .ok i →
    (∀ rest, s.agenda = .engine :: rest → step s = exec i { s with draws := s.draws + 1, agenda := rest }) ∧
    (s.agenda = [] → step s = exec i { s with draws := s.draws + 1 })

/-- The word of any command, placed by withFetchWord, is what the very next step runs, from the state its acceptance
leaves (log 3). -/
def Obligations.FetchedWordRunsNext : Prop :=
  ∀ (s : State) (i : Instr), step (s.withFetchWord 32 (encode i).toNat) =
    exec i { s with
      pending := some (encode i), cmdLast := encode i, done := false, error := none, errIdx := 0#32,
      draws := s.draws + 1 }

/-- 60_exceptions.md section 3, R233: with PENDING empty the engine's turn changes nothing, and every state survives
idleness. That an idle step is one that keeps the state is the model's choice (log 2). -/
def Obligations.EmptyLatchIdles : Prop :=
  ∀ s : State, s.pending = none → engineStep s = .next s ∧ (s.agenda = [] → step s = .next s)

/-- R202: a command either completes or completes with an error; no other outcome exists. In both cases PENDING is
emptied and DONE set. -/
def Obligations.EveryCommandCompletes : Prop :=
  ∀ (i : Instr) (s : State), ∃ t, exec i s = .next t ∧ t.pending = none ∧ t.done = true ∧
    ((t.error = s.error ∧ t.errIdx = s.errIdx) ∨ ∃ k, t.error = some k)

/-- R206, R27, R42, R224: no command writes a parameter, IRQ_EN, OVERRUN, ACCESS_ERR, CMD_LAST, ARG or SYM_IN, nor the
model's own fields; only CLEAR writes ILEN. -/
def Obligations.CommandsKeepTheHostSide : Prop :=
  ∀ (i : Instr) (s t : State), exec i s = .next t →
    t.params = s.params ∧ t.irqEn = s.irqEn ∧ t.overrun = s.overrun ∧ t.accessErr = s.accessErr ∧
    t.cmdLast = s.cmdLast ∧ t.arg = s.arg ∧ t.symIn = s.symIn ∧ t.agenda = s.agenda ∧ t.draws = s.draws ∧
    t.readData = s.readData ∧ (i ≠ .clear → t.ilen = s.ilen)

/-- Every agenda of 32-bit accesses steps on, and stays one: nothing in the block stops a run (R61, R202). That step
answers a next state with no turn left in an idle block, and on an engine turn with PENDING empty, where R201 and R233
give the engine no step, is the model's choice (log 2). -/
def Obligations.WordAccessAgendasStepOn : Prop :=
  ∀ s : State, s.AgendaOk → ∃ t, step s = .next t ∧ t.AgendaOk

/-- R262, R85: a WAIT ends. Polls of STATUS leave the command pending, and the step after them completes it (log 15:
fairness). -/
def Obligations.PendingCommandEventuallyCompletes : Prop :=
  ∀ (s : State) (k : Nat), s.pending ≠ none → s.agenda = List.replicate k (rdTurn (.reg .status)) →
    ∃ t, runSteps (k + 1) s = .next t ∧ t.pending = none ∧ t.done = true

/-! ## The host bus (20_memory.md, 10_state.md section 2) -/

/-- R61: an access of any other width is refused, not given a value; a 32-bit access is answered at every offset, so
none is misaligned. -/
def Obligations.OnlyWordAccessesAreAnswered : Prop :=
  ∀ (s : State) (n : Nat) (a : Offset) (v : Word),
    (n ≠ 4 → hostStep (.read n a) s = .refused (.accessWidth n) ∧
      hostStep (.write n a v) s = .refused (.accessWidth n)) ∧
    (∃ t, hostStep (.read 4 a) s = .next t) ∧ ∃ t, hostStep (.write 4 a v) s = .next t

/-- R62, R60: a 32-bit read changes no state of the block (the word read stands in the model's own field, log 4), and
bits 1:0 of the offset are ignored by reads and writes. -/
def Obligations.ReadsHaveNoSideEffect : Prop :=
  ∀ (s : State) (a b : Offset) (v : Word), a.toNat / 4 = b.toNat / 4 →
    hostStep (.read 4 a) s = .next { s with readData := some (s.busRead a) } ∧
    s.busRead a = s.busRead b ∧ s.busWrite a v = s.busWrite b v

/-- The register map of 10_state.md section 2: every register and window word stands at its offset. -/
def Obligations.RegisterMapOffsets : Prop :=
  ∀ p : Params, p.legal = true →
    locate p 0x00000#20 = .reg .id ∧ locate p 0x00004#20 = .reg .ctrl ∧ locate p 0x00008#20 = .reg .status ∧
    locate p 0x0000C#20 = .reg .cmd ∧ locate p 0x00010#20 = .reg .arg ∧ locate p 0x00014#20 = .reg .ilen ∧
    locate p 0x00018#20 = .reg .blen ∧ locate p 0x0001C#20 = .reg .olen ∧ locate p 0x00020#20 = .reg .total ∧
    locate p 0x00024#20 = .reg .ndistinct ∧ locate p 0x00028#20 = .reg .root ∧ locate p 0x0002C#20 = .reg .nnodes ∧
    locate p 0x00030#20 = .reg .erridx ∧ locate p 0x00034#20 = .reg .maxlen ∧
    locate p 0x00038#20 = .reg .paramSymCap ∧ locate p 0x0003C#20 = .reg .paramBitCap ∧
    (∀ y : Symbol, locate p (BitVec.ofNat 20 (0x00400 + 4 * y.toNat)) = .freq y ∧
      locate p (BitVec.ofNat 20 (0x00800 + 4 * y.toNat)) = .clen y ∧
      ∀ w, w < 8 → locate p (BitVec.ofNat 20 (0x01000 + 32 * y.toNat + 4 * w)) = .codebits y w) ∧
    (∀ i, i < 511 → locate p (BitVec.ofNat 20 (0x03000 + 4 * i)) = .nodeW i ∧
      locate p (BitVec.ofNat 20 (0x03800 + 4 * i)) = .nodeL i) ∧
    (∀ i, i < p.symCap → locate p (BitVec.ofNat 20 (0x10000 + 4 * i)) = .symIn i ∧
      locate p (BitVec.ofNat 20 (0x20000 + 4 * i)) = .symOut i) ∧
    (∀ w, w < p.bitCap / 32 → locate p (BitVec.ofNat 20 (0x30000 + 4 * w)) = .bits w)

/-- R64: every other word is reserved; a read returns 0, a write is ignored and sets no flag, busy or not. -/
def Obligations.ReservedWordsReadZero : Prop :=
  ∀ (s : State) (a : Offset) (v : Word), s.params.legal = true →
    ((0x10 ≤ a.toNat / 4 ∧ a.toNat / 4 < 0x100) ∨ (0x300 ≤ a.toNat / 4 ∧ a.toNat / 4 < 0x400) ∨
      a.toNat / 4 = 0x037FC / 4 ∨ a.toNat / 4 = 0x03FFC / 4 ∨
      (0x1000 ≤ a.toNat / 4 ∧ a.toNat / 4 < 0x4000) ∨
      (0x4000 + s.params.symCap ≤ a.toNat / 4 ∧ a.toNat / 4 < 0x8000) ∨
      (0x8000 + s.params.symCap ≤ a.toNat / 4 ∧ a.toNat / 4 < 0xC000) ∨
      0xC000 + s.params.bitCap / 32 ≤ a.toNat / 4) →
    s.busRead a = 0#32 ∧ s.busWrite a v = s

/-- R22, R35: ID always reads 0x48554631, the PARAM registers read the capacities, and writes to the three are
ignored. -/
def Obligations.ConstantRegisters : Prop :=
  ∀ (s : State) (v : Word),
    s.busRead 0x00000#20 = 0x48554631#32 ∧ s.busWrite 0x00000#20 v = s ∧
    s.busRead 0x00038#20 = BitVec.ofNat 32 s.params.symCap ∧ s.busWrite 0x00038#20 v = s ∧
    s.busRead 0x0003C#20 = BitVec.ofNat 32 s.params.bitCap ∧ s.busWrite 0x0003C#20 v = s

/-- R24, R220: what each bit of STATUS reads, in every state, and the codes of the seven error kinds. -/
def Obligations.StatusWordLayout : Prop :=
  ∀ s : State,
    (s.busRead 0x00008#20).getLsbD 0 = s.pending.isSome ∧ (s.busRead 0x00008#20).getLsbD 1 = s.done ∧
    ((s.busRead 0x00008#20).getLsbD 2 = true ↔ (s.busRead 0x00008#20).toNat / 2 ^ 8 % 2 ^ 4 ≠ 0) ∧
    (s.busRead 0x00008#20).getLsbD 3 = s.overrun ∧ (s.busRead 0x00008#20).getLsbD 4 = s.accessErr ∧
    (s.busRead 0x00008#20).getLsbD 5 = s.treeValid ∧ (s.busRead 0x00008#20).getLsbD 6 = s.codesValid ∧
    (s.busRead 0x00008#20).getLsbD 7 = false ∧ (∀ i, 12 ≤ i → (s.busRead 0x00008#20).getLsbD i = false) ∧
    (s.busRead 0x00008#20).toNat / 2 ^ 8 % 2 ^ 4 =
      match s.error with
      | none => 0
      | some .unknownSymbol => 1
      | some .malformedStream => 2
      | some .invalidFrequencyTable => 3
      | some .countOverflow => 4
      | some .capacityExceeded => 5
      | some .notReady => 6
      | some .illegalCommand => 7

/-- R25: a STATUS write clears DONE, OVERRUN and ACCESS_ERR where bits 1, 3, 4 are 1, and does nothing else, busy or
not. -/
def Obligations.StatusWriteClearsFlags : Prop :=
  ∀ (s : State) (v : Word), s.busWrite 0x00008#20 v =
    { s with
      done := if v.getLsbD 1 then false else s.done, overrun := if v.getLsbD 3 then false else s.overrun,
      accessErr := if v.getLsbD 4 then false else s.accessErr }

/-- R50: the reset (R250; one event here, log 17) puts every piece of the block's state to its reset value, whatever
the state was, a pending command included; the parameters and the model's own fields stay. -/
def Obligations.HardwareResetState : Prop :=
  ∀ s : State, ∃ t, takeTurn .rst s = .next t ∧ t.irq = false ∧ t =
    { params := s.params, irqEn := false, done := false, overrun := false, accessErr := false, treeValid := false,
      codesValid := false, error := none, errIdx := 0#32, cmdLast := 0#32, arg := 0#32, ilen := 0#32, blen := 0#32,
      olen := 0#32, total := 0#32, ndistinct := 0#9, root := none, nnodes := 0#10, maxlen := 0#9, pending := none,
      freq := Vector.replicate 256 0#32, codes := none, nodes := [], symIn := [], symOut := [], bits := [],
      agenda := s.agenda, draws := s.draws, readData := s.readData }

/-- R23, R251: CTRL reads IRQ_EN in bit 0 and 0 elsewhere; a write with bit 1 = 0 sets IRQ_EN and nothing else; a write
with bit 1 = 1 is the soft reset, the same state change as the reset of R250 whatever bit 0 is. All of it busy or
not. -/
def Obligations.ControlWritesAndSoftReset : Prop :=
  ∀ (s : State) (v : Word),
    s.busRead 0x00004#20 = (if s.irqEn then 1#32 else 0#32) ∧
    (v.getLsbD 1 = false → s.busWrite 0x00004#20 v = { s with irqEn := v.getLsbD 0 }) ∧
    (v.getLsbD 1 = true → takeTurn .rst s = .next (s.busWrite 0x00004#20 v))

/-- R200, R254: a CMD write is accepted while BUSY = 0, every word, legal or not, and refused with OVERRUN while
BUSY = 1. -/
def Obligations.CommandAcceptance : Prop :=
  ∀ (s : State) (v : Word),
    (s.pending = none → s.busWrite 0x0000C#20 v =
      { s with pending := some v, cmdLast := v, done := false, error := none, errIdx := 0#32 }) ∧
    (s.pending ≠ none → s.busWrite 0x0000C#20 v = { s with overrun := true })

/-- R26: a CMD read returns CMD_LAST, in every state; CMD_LAST changes only at acceptance, and at a reset. The turn
a step takes is the head of the agenda (log 2). -/
def Obligations.CmdLastChangesOnlyAtAcceptance : Prop :=
  ∀ s t : State, s.busRead 0x0000C#20 = s.cmdLast ∧
    (step s = .next t → t.cmdLast = s.cmdLast ∨
      (∃ rest addr v, s.agenda = .host (.write 4 addr v) :: rest ∧ locate s.params addr = .reg .cmd ∧
        s.pending = none ∧ t.cmdLast = v) ∨
      (t.cmdLast = 0#32 ∧ ∃ turn rest, s.agenda = turn :: rest ∧
        (turn = .rst ∨ ∃ a, turn = .host a ∧ SoftReset s.params a)))

/-- R27, R28, R29, R42, R44: while idle, ARG, ILEN and BLEN store all 32 bits, a SYM_IN write stores v[7:0] and a BITS
write all 32 bits, at that index alone; each reads back, and the write changes nothing else. -/
def Obligations.HostInputsStore : Prop :=
  ∀ (s : State) (i : Nat) (v : Word), s.params.legal = true → s.pending = none →
    (s.busWrite 0x00010#20 v = { s with arg := v } ∧ (s.busWrite 0x00010#20 v).busRead 0x00010#20 = v) ∧
    (s.busWrite 0x00014#20 v = { s with ilen := v } ∧ (s.busWrite 0x00014#20 v).busRead 0x00014#20 = v) ∧
    (s.busWrite 0x00018#20 v = { s with blen := v } ∧ (s.busWrite 0x00018#20 v).busRead 0x00018#20 = v) ∧
    (i < s.params.symCap → ∃ m,
      s.busWrite (BitVec.ofNat 20 (0x10000 + 4 * i)) v = { s with symIn := m } ∧
      (∀ j, Memory.read m j = if j = i then some (BitVec.ofNat 8 (v.toNat % 256)) else Memory.read s.symIn j) ∧
      ((s.busWrite (BitVec.ofNat 20 (0x10000 + 4 * i)) v).busRead (BitVec.ofNat 20 (0x10000 + 4 * i))).toNat =
        v.toNat % 256) ∧
    (i < s.params.bitCap / 32 → ∃ m,
      s.busWrite (BitVec.ofNat 20 (0x30000 + 4 * i)) v = { s with bits := m } ∧
      (∀ j, Memory.read m j = if j = i then some v else Memory.read s.bits j) ∧
      (s.busWrite (BitVec.ofNat 20 (0x30000 + 4 * i)) v).busRead (BitVec.ofNat 20 (0x30000 + 4 * i)) = v)

/-- R255, R256: while BUSY = 1, a write to ARG, ILEN, BLEN, a SYM_IN word or a BITS word changes nothing and sets
ACCESS_ERR; a read of any location but ID, CTRL, STATUS, CMD_LAST, the PARAM registers and the reserved words returns
any value; those, and writes to CTRL, STATUS and reserved words, behave as when idle. While BUSY = 0 every location
reads its rule's value. That any value is the free value `Config.freeWord` of the draw counter is the model's choice
(log 1); the statement holds whatever it is. -/
def Obligations.BusyBlockProtectsItsInputs : Prop :=
  ∀ (s : State) (a : Offset) (v : Word), (s.pending = none → s.busRead a = s.readLoc (locate s.params a)) ∧
    (s.pending ≠ none →
      ((locate s.params a = .reg .arg ∨ locate s.params a = .reg .ilen ∨ locate s.params a = .reg .blen ∨
          (∃ i, locate s.params a = .symIn i) ∨ ∃ w, locate s.params a = .bits w) →
        s.busWrite a v = { s with accessErr := true }) ∧
      ((locate s.params a ∈ [.reg .id, .reg .ctrl, .reg .cmd, .reg .paramSymCap, .reg .paramBitCap, .reserved] →
        s.busRead a = { s with pending := none }.busRead a) ∧
       (locate s.params a = .reg .status → s.busRead a = { s with pending := none }.busRead a ||| 1#32) ∧
       (locate s.params a ∉ [.reg .id, .reg .ctrl, .reg .status, .reg .cmd, .reg .paramSymCap, .reg .paramBitCap,
          .reserved] → s.busRead a = Config.freeWord s.draws 0)) ∧
      (locate s.params a = .reserved → s.busWrite a v = s) ∧
      (locate s.params a = .reg .status ∨ locate s.params a = .reg .ctrl → { s.busWrite a v with pending := none } =
        { s with pending := none }.busWrite a v))

/-- R69 item 4, R72: while a command is pending, no 32-bit host access but a soft reset touches the command, its
inputs or any derived state; it reaches only IRQ_EN, DONE, the two sticky flags and the word read. -/
def Obligations.HostCannotDisturbPendingCommand : Prop :=
  ∀ (s t : State) (a : Access), s.pending ≠ none → ¬ SoftReset s.params a → hostStep a s = .next t →
    t = { s with
      irqEn := t.irqEn, done := t.done, overrun := t.overrun, accessErr := t.accessErr, readData := t.readData }

/-- R39, R40, R41, R43, R30 to R34, R36, R37, R63: no host access but a soft reset reaches the frequency table, the code
table, the node store, SYM_OUT or a read-only register (ERRIDX but at acceptance, R200); and a write to a read-only
register or to a word of the FREQ, CLEN, CODEBITS, NODE_W, NODE_L and SYM_OUT windows changes nothing at all, busy or
not. -/
def Obligations.HostWritesNeverReachDerivedState : Prop :=
  ∀ s : State,
    (∀ (t : State) (a : Access), ¬ SoftReset s.params a → hostStep a s = .next t →
      t.freq = s.freq ∧ t.codes = s.codes ∧ t.nodes = s.nodes ∧ t.symOut = s.symOut ∧ t.olen = s.olen ∧
      t.total = s.total ∧ t.ndistinct = s.ndistinct ∧ t.root = s.root ∧ t.nnodes = s.nnodes ∧ t.maxlen = s.maxlen ∧
      t.treeValid = s.treeValid ∧ t.codesValid = s.codesValid ∧ t.params = s.params ∧
      ((∃ addr v, a = .write 4 addr v ∧ locate s.params addr = .reg .cmd ∧ s.pending = none) ∨
        (t.error = s.error ∧ t.errIdx = s.errIdx))) ∧
    ∀ (addr : Offset) (v : Word),
      (addr.toNat / 4 = 0 ∨ (0x0001C / 4 ≤ addr.toNat / 4 ∧ addr.toNat / 4 ≤ 0x0003C / 4) ∨
        (0x00400 / 4 ≤ addr.toNat / 4 ∧ addr.toNat / 4 ≤ 0x00BFC / 4) ∨
        (0x01000 / 4 ≤ addr.toNat / 4 ∧ addr.toNat / 4 ≤ 0x03FFC / 4) ∨
        (0x20000 / 4 ≤ addr.toNat / 4 ∧ addr.toNat / 4 ≤ 0x2FFFC / 4)) →
      s.busWrite addr v = s

/-- R30 to R34, R36, R37, R39 to R44: while idle, OLEN, TOTAL, NDISTINCT, NNODES, ERRIDX and MAXLEN read their values,
and ROOT reads 0 without a root, else bit 31 and the index; the FREQ window reads the counts; with CODES_VALID = 1 the
CLEN window reads the lengths, and bit 31 − b of CODEBITS word w is CODE[y][32w + b], and 0 past CLEN; with
TREE_VALID = 1 NODE_W reads the weight of a node below NNODES and NODE_L its symbol or its children; SYM_OUT reads the
symbols below OLEN; SYM_IN and BITS read the value an index holds, whoever wrote it. -/
def Obligations.ReadOnlyWindows : Prop :=
  ∀ (s : State) (y : Symbol) (i : Nat), s.params.legal = true → s.pending = none →
    (s.busRead 0x0001C#20 = s.olen ∧ s.busRead 0x00020#20 = s.total ∧
      (s.busRead 0x00024#20).toNat = s.ndistinct.toNat ∧ (s.root = none → s.busRead 0x00028#20 = 0#32) ∧
      (∀ r, s.root = some r → (s.busRead 0x00028#20).toNat = 2 ^ 31 + r.toNat) ∧
      (s.busRead 0x0002C#20).toNat = s.nnodes.toNat ∧ s.busRead 0x00030#20 = s.errIdx ∧
      (s.busRead 0x00034#20).toNat = s.maxlen.toNat) ∧
    s.busRead (BitVec.ofNat 20 (0x00400 + 4 * y.toNat)) = entry s.freq y ∧
    (∀ table, s.codesValid = true → s.codes = some table → (entry table y).length ≤ 255 →
      (s.busRead (BitVec.ofNat 20 (0x00800 + 4 * y.toNat))).toNat = (entry table y).length ∧
      ∀ w b, w < 8 → b < 32 →
        (s.busRead (BitVec.ofNat 20 (0x01000 + 32 * y.toNat + 4 * w))).getLsbD (31 - b) =
          ((entry table y)[32 * w + b]?).getD false) ∧
    (∀ x, i < 511 → s.treeValid = true → i < s.nnodes.toNat → Memory.read s.nodes i = some x →
      s.busRead (BitVec.ofNat 20 (0x03000 + 4 * i)) = x.weight ∧
      (s.busRead (BitVec.ofNat 20 (0x03800 + 4 * i))).toNat =
        if x.isLeaf then 2 ^ 31 + x.sym.toNat else x.right.toNat * 2 ^ 16 + x.left.toNat) ∧
    (∀ z, i < s.params.symCap → i < s.olen.toNat → Memory.read s.symOut i = some z →
      (s.busRead (BitVec.ofNat 20 (0x20000 + 4 * i))).toNat = z.toNat) ∧
    (∀ z, i < s.params.symCap → Memory.read s.symIn i = some z →
      (s.busRead (BitVec.ofNat 20 (0x10000 + 4 * i))).toNat = z.toNat) ∧
    (∀ v, i < s.params.bitCap / 32 → Memory.read s.bits i = some v →
      s.busRead (BitVec.ofNat 20 (0x30000 + 4 * i)) = v)

/-- 10_state.md section 4, R49 (derived there): IRQ is IRQ_EN and DONE, a level: it stays asserted until the host
clears DONE, clears IRQ_EN, issues the next command, or a reset. The turn a step takes is the head of the agenda
(log 2). -/
def Obligations.IrqStaysUntilCleared : Prop :=
  ∀ s t : State, s.irq = (s.irqEn && s.done) ∧
    (step s = .next t → s.irq = true → t.irq = false → ∃ turn rest, s.agenda = turn :: rest ∧
      (turn = .rst ∨ ∃ addr v, turn = .host (.write 4 addr v) ∧
        ((locate s.params addr = .reg .status ∧ v.getLsbD 1 = true) ∨
         (locate s.params addr = .reg .ctrl ∧ (v.getLsbD 1 = true ∨ v.getLsbD 0 = false)) ∨
         (locate s.params addr = .reg .cmd ∧ s.pending = none))))

/-! ## Commands: results and frames -/

/-- R203: NOP completes and changes nothing else. -/
def Obligations.NopOnlyCompletes : Prop :=
  ∀ s : State, exec .nop s = .next { s with pending := none, done := true }

/-- R205: CLEAR writes exactly the state its rule lists. -/
def Obligations.ClearDiscardsDerivedState : Prop :=
  ∀ s : State, ∃ freq, exec .clear s = .next
    { s with
      freq := freq, total := 0#32, ndistinct := 0#9, treeValid := false, codesValid := false, root := none,
      nnodes := 0#10, maxlen := 0#9, ilen := 0#32, blen := 0#32, olen := 0#32, pending := none, done := true } ∧
    ∀ y, entry freq y = 0#32

/-- R100: FREQ_SET replaces one count, TOTAL and NDISTINCT follow, the validity flags are cleared; a zero count and a
total past 2^32 − 1 are errors that change nothing but the completion. -/
def Obligations.FreqSetReplacesOneCount : Prop :=
  ∀ (y : Symbol) (s : State), s.FreqOk →
    (s.arg = 0#32 → exec (.freqSet y) s = .next
      { s with error := some .invalidFrequencyTable, errIdx := BitVec.ofNat 32 y.toNat, pending := none,
               done := true }) ∧
    (s.arg ≠ 0#32 → 2 ^ 32 - 1 < s.total.toNat - (entry s.freq y).toNat + s.arg.toNat → exec (.freqSet y) s = .next
      { s with error := some .countOverflow, errIdx := BitVec.ofNat 32 y.toNat, pending := none, done := true }) ∧
    (s.arg ≠ 0#32 → s.total.toNat - (entry s.freq y).toNat + s.arg.toNat ≤ 2 ^ 32 - 1 →
      ∃ freq total nd, exec (.freqSet y) s = .next
        { s with
          freq := freq, total := total, ndistinct := nd, treeValid := false, codesValid := false, pending := none,
          done := true } ∧
        (∀ z, entry freq z = if z = y then s.arg else entry s.freq z) ∧
        total.toNat + (entry s.freq y).toNat = s.total.toNat + s.arg.toNat ∧
        nd.toNat = s.ndistinct.toNat + if entry s.freq y = 0#32 then 1 else 0)

/-- R102 (and so R103, derived there): FREQ_COUNT replaces the table by the occurrence counts of SYM_IN[0..ILEN−1];
ILEN > SYM_CAP is an error that changes nothing but the completion. -/
def Obligations.FreqCountCountsTheInput : Prop :=
  ∀ s : State,
    (s.params.symCap < s.ilen.toNat → exec .freqCount s = .next
      { s with error := some .capacityExceeded, errIdx := s.ilen, pending := none, done := true }) ∧
    (s.ilen.toNat ≤ s.params.symCap → ∃ freq nd, exec .freqCount s = .next
      { s with
        freq := freq, total := s.ilen, ndistinct := nd, treeValid := false, codesValid := false, pending := none,
        done := true } ∧
      (∀ y, (entry freq y).toNat = ((List.range s.ilen.toNat).filter (fun i => s.symInAt i == y)).length) ∧
      nd.toNat = (symbols.filter (fun y => entry freq y != 0#32)).length)

/-- 40_frequency.md, "Transmitting a frequency table" (R101, derived there): after CLEAR, one FREQ_SET per pair, in any
order, loads exactly the sent table, with no error. -/
def Obligations.TransmittedTableLoads : Prop :=
  ∀ (s : State) (ps : List (Symbol × Word)), (ps.map Prod.fst).Nodup → (∀ p ∈ ps, p.2 ≠ 0#32) →
    (ps.map (fun p => p.2.toNat)).sum ≤ 2 ^ 32 - 1 →
    ∃ c t, exec .clear s = .next c ∧ loadPairs ps c = .next t ∧ t.error = s.error ∧
      (∀ p ∈ ps, entry t.freq p.1 = p.2) ∧ (∀ y, y ∉ ps.map Prod.fst → entry t.freq y = 0#32)

/-- R120, R122 (and so R123, and R124 derived there): BUILD writes one leaf per distinct symbol in ascending order, then
repeatedly the parent of the least (WEIGHT, index) node of the queue (LEFT) and the least of the rest (RIGHT); ROOT is the last node, NNODES
their number, and nothing else changes but the flags. -/
def Obligations.BuildMergesTheLeastPairs : Prop :=
  ∀ s : State, s.FreqOk → ∃ arena root nodes, exec .build s = .next
      { s with
        nodes := nodes, root := root, nnodes := BitVec.ofNat 10 arena.length, treeValid := true, codesValid := false,
        pending := none, done := true } ∧
    (∀ i, i < arena.length → Memory.read nodes i = arena[i]?) ∧
    (∀ i, arena.length ≤ i → Memory.read nodes i = Memory.read s.nodes i) ∧
    arena.length = 2 * s.ndistinct.toNat - 1 ∧
    arena.take s.ndistinct.toNat = (symbols.filter (fun y => entry s.freq y != 0#32)).map (fun y =>
      { isLeaf := true, sym := y, weight := entry s.freq y, left := 0#9, right := 0#9 }) ∧
    (∀ n, s.ndistinct.toNat ≤ n → n < arena.length → ∃ a b w,
      arena[n]? = some { isLeaf := false, sym := 0#8, weight := w, left := BitVec.ofNat 9 a,
                         right := BitVec.ofNat 9 b } ∧
      IsLeast arena (InQueue arena n) a ∧ IsLeast arena (fun j => InQueue arena n j ∧ j ≠ a) b ∧
      w.toNat = weightOf arena a + weightOf arena b) ∧
    root = if s.ndistinct = 0#9 then none else some (BitVec.ofNat 9 (2 * s.ndistinct.toNat - 2))

/-- 41_tree_builder.md, "Shape of the result" (R121, derived there): the root's weight is TOTAL, no weight is above it,
and every node but the root is the child of exactly one internal node, on one side. -/
def Obligations.BuiltTreeShape : Prop :=
  ∀ s : State, s.FreqOk → s.HoldsTree → s.ndistinct ≠ 0#9 →
    weightOf (treeArena s.freq) (2 * s.ndistinct.toNat - 2) = s.total.toNat ∧
    (∀ i, weightOf (treeArena s.freq) i ≤ s.total.toNat) ∧
    (∀ i, i < 2 * s.ndistinct.toNat - 2 → ∃ n x,
      (Memory.read s.nodes n = some x ∧ n < s.nnodes.toNat ∧ x.isLeaf = false ∧ i < n ∧
        ((x.left.toNat = i ∧ x.right.toNat ≠ i) ∨ (x.right.toNat = i ∧ x.left.toNat ≠ i))) ∧
      ∀ m z, Memory.read s.nodes m = some z → m < s.nnodes.toNat → z.isLeaf = false →
        (z.left.toNat = i ∨ z.right.toNat = i) → m = n)

/-- 41_tree_builder.md R126 (derived there): two BUILDs from the same FREQ write the same nodes, ROOT and NNODES,
whatever else differs. -/
def Obligations.BuildDependsOnFreqAlone : Prop :=
  ∀ s u t v : State, s.freq = u.freq → exec .build s = .next t → exec .build u = .next v →
    t.root = v.root ∧ t.nnodes = v.nnodes ∧
    ∀ i, i < t.nnodes.toNat → Memory.read t.nodes i = Memory.read v.nodes i ∧ Memory.read t.nodes i ≠ none

/-- R145: from a one-leaf tree GEN gives its symbol the single bit 0, and every other symbol no code. And R140: without
a valid tree GEN is NotReady and changes nothing but the completion; from the empty tree it writes the empty table. -/
def Obligations.GenSmallTrees : Prop :=
  ∀ s : State,
    (s.treeValid = false → exec .gen s = .next
      { s with error := some .notReady, errIdx := 0#32, pending := none, done := true }) ∧
    (s.treeValid = true → s.root = none → ∃ table, exec .gen s = .next
      { s with codes := some table, maxlen := 0#9, codesValid := true, pending := none, done := true } ∧
      ∀ y, entry table y = []) ∧
    (∀ r, s.treeValid = true → s.root = some r → (s.nodeAt r).isLeaf = true → ∃ table, exec .gen s = .next
      { s with codes := some table, maxlen := 1#9, codesValid := true, pending := none, done := true } ∧
      ∀ y, entry table y = if y = (s.nodeAt r).sym then [false] else [])

/-- 42_code_table.md R140 and "Path form" (R141, derived there): from a tree of two symbols or more GEN gives each
symbol of the table the branch bits from the root to its leaf, no other symbol a code, and MAXLEN the greatest length;
nothing else changes. -/
def Obligations.GenCodesAreRootToLeafPaths : Prop :=
  ∀ (s : State) (r : NodeIdx), s.FreqOk → s.HoldsTree → s.treeValid = true → 2 ≤ s.ndistinct.toNat →
    s.root = some r → ∃ table ml, exec .gen s = .next
      { s with codes := some table, maxlen := ml, codesValid := true, pending := none, done := true } ∧
      (∀ y, entry s.freq y ≠ 0#32 → ∃ n, follow s.nodeAt r (entry table y) = some n ∧
        (s.nodeAt n).isLeaf = true ∧ (s.nodeAt n).sym = y) ∧
      (∀ y, entry s.freq y = 0#32 → entry table y = []) ∧
      (∀ y, (entry table y).length ≤ ml.toNat) ∧ ∃ y, (entry table y).length = ml.toNat

/-- 42_code_table.md, "Length bound" (R142, derived there). -/
def Obligations.CodeLengthBound : Prop :=
  ∀ s : State, s.FreqOk → s.CodesOk → s.codesValid = true → 2 ≤ s.ndistinct.toNat → ∀ y,
    (entry s.freq y ≠ 0#32 → 1 ≤ (s.codeAt y).length ∧ (s.codeAt y).length ≤ s.ndistinct.toNat - 1) ∧
    (entry s.freq y = 0#32 → s.codeAt y = [])

/-- 42_code_table.md, "Prefix-freedom and completeness" and "Inverse table" (R143, R144, derived there): no code is a
prefix of another, and every bit sequence is a prefix of some code or has some code as a prefix. -/
def Obligations.CodesPrefixFreeAndComplete : Prop :=
  ∀ s : State, s.FreqOk → s.CodesOk → s.codesValid = true → 2 ≤ s.ndistinct.toNat →
    PrefixFree s.freq s.codeAt ∧
    ∀ p : Code, ∃ y, entry s.freq y ≠ 0#32 ∧ (p <+: s.codeAt y ∨ s.codeAt y <+: p)

/-- R125: for k ≥ 2 the weighted code length is minimal among all prefix-free codes for the table. -/
def Obligations.CodesAreOptimal : Prop :=
  ∀ (s : State) (c : Symbol → Code), s.FreqOk → s.CodesOk → s.codesValid = true → 2 ≤ s.ndistinct.toNat →
    PrefixFree s.freq c → weightedLength s.freq s.codeAt ≤ weightedLength s.freq c

/-- R160: MAP packs the codes of SYM_IN in input order, pads the last word with zeros, writes no word past it, and sets
BLEN; its errors, in order, with the clean-up of 60_exceptions.md R222. -/
def Obligations.MapPacksTheCodes : Prop :=
  ∀ s : State, s.params.legal = true →
    (s.codesValid = false → exec .map s = .next
      { s with blen := 0#32, error := some .notReady, errIdx := 0#32, pending := none, done := true }) ∧
    (s.codesValid = true → s.params.symCap < s.ilen.toNat → exec .map s = .next
      { s with blen := 0#32, error := some .capacityExceeded, errIdx := s.ilen, pending := none, done := true }) ∧
    (s.codesValid = true → s.ilen.toNat ≤ s.params.symCap → ∀ i y, s.inputSymbols[i]? = some y →
      (∀ z ∈ s.inputSymbols.take i, s.codeAt z ≠ []) →
      ((s.inputSymbols.take i).flatMap s.codeAt).length ≤ s.params.bitCap →
      (s.codeAt y = [] → exec .map s = .next
        { s with blen := 0#32, bits := [], error := some .unknownSymbol, errIdx := BitVec.ofNat 32 i, pending := none,
                 done := true }) ∧
      (s.codeAt y ≠ [] → s.params.bitCap < ((s.inputSymbols.take (i + 1)).flatMap s.codeAt).length →
        exec .map s = .next
          { s with blen := 0#32, bits := [], error := some .capacityExceeded, errIdx := BitVec.ofNat 32 i,
                   pending := none, done := true })) ∧
    (s.codesValid = true → s.ilen.toNat ≤ s.params.symCap → (∀ z ∈ s.inputSymbols, s.codeAt z ≠ []) →
      (s.inputSymbols.flatMap s.codeAt).length ≤ s.params.bitCap → ∃ bits len, exec .map s = .next
        { s with bits := bits, blen := len, pending := none, done := true } ∧
        len.toNat = (s.inputSymbols.flatMap s.codeAt).length ∧
        (∀ w, w < (len.toNat + 31) / 32 → ∃ v, Memory.read bits w = some v ∧ ∀ b, b < 32 →
          v.getLsbD (31 - b) = ((s.inputSymbols.flatMap s.codeAt)[32 * w + b]?).getD false) ∧
        (∀ w, (len.toNat + 31) / 32 ≤ w → Memory.read bits w = Memory.read s.bits w))

/-- 44_decoder.md R180: the checks of PARSE before its loop, in the order of R223, each with its clean-up, and the
empty table. -/
def Obligations.ParseChecksInOrder : Prop :=
  ∀ s : State,
    (s.codesValid = false → exec .parse s = .next
      { s with olen := 0#32, error := some .notReady, errIdx := 0#32, pending := none, done := true }) ∧
    (s.codesValid = true → s.params.bitCap < s.blen.toNat → exec .parse s = .next
      { s with olen := 0#32, error := some .capacityExceeded, errIdx := s.blen, pending := none, done := true }) ∧
    (s.codesValid = true → s.blen.toNat ≤ s.params.bitCap → s.ndistinct = 0#9 →
      (s.blen = 0#32 → exec .parse s = .next { s with olen := 0#32, pending := none, done := true }) ∧
      (s.blen ≠ 0#32 → exec .parse s = .next
        { s with olen := 0#32, error := some .invalidFrequencyTable, errIdx := s.blen, pending := none,
                 done := true })) ∧
    (s.codesValid = true → s.blen.toNat ≤ s.params.bitCap → s.ndistinct ≠ 0#9 → s.params.symCap < s.total.toNat →
      exec .parse s = .next
        { s with olen := 0#32, error := some .capacityExceeded, errIdx := s.total, pending := none, done := true })

/-- R183: with one symbol of count N in the table PARSE writes N copies of it and reads no bit, whatever BITS holds and
whatever BLEN is up to BIT_CAP; a BLEN past BIT_CAP is CapacityExceeded. -/
def Obligations.ParseSingleSymbolIgnoresBits : Prop :=
  ∀ (s : State) (y : Symbol), s.FreqOk → s.CodesOk → s.codesValid = true → s.ndistinct = 1#9 →
    entry s.freq y ≠ 0#32 → s.total.toNat ≤ s.params.symCap →
    (s.blen.toNat ≤ s.params.bitCap → ∃ out, exec .parse s = .next
      { s with symOut := out, olen := s.total, pending := none, done := true } ∧
      (∀ i, i < s.total.toNat → Memory.read out i = some y) ∧
      (∀ i, s.total.toNat ≤ i → Memory.read out i = Memory.read s.symOut i)) ∧
    (s.params.bitCap < s.blen.toNat → exec .parse s = .next
      { s with olen := 0#32, error := some .capacityExceeded, errIdx := s.blen, pending := none, done := true })

/-- 44_decoder.md R180, R181: the general case of PARSE. The stream is the codes of some symbols and a tail that no code
begins; an excess code, then a tail, then a missing symbol is MalformedStream with the ERRIDX of R220, and else the
symbols are the output. -/
def Obligations.ParseReadsTheCodes : Prop :=
  ∀ (s : State) (syms : List Symbol) (tail : Code), s.FreqOk → s.CodesOk → s.codesValid = true →
    2 ≤ s.ndistinct.toNat → s.blen.toNat ≤ s.params.bitCap → s.total.toNat ≤ s.params.symCap →
    (∀ y ∈ syms, entry s.freq y ≠ 0#32) → (∀ y, entry s.freq y ≠ 0#32 → ¬ s.codeAt y <+: tail) →
    s.streamBits = syms.flatMap s.codeAt ++ tail →
    (s.total.toNat < syms.length → exec .parse s = .next
      { s with olen := 0#32, symOut := [], error := some .malformedStream,
               errIdx := BitVec.ofNat 32 ((syms.take s.total.toNat).flatMap s.codeAt).length, pending := none,
               done := true }) ∧
    (syms.length ≤ s.total.toNat → tail ≠ [] → exec .parse s = .next
      { s with olen := 0#32, symOut := [], error := some .malformedStream,
               errIdx := BitVec.ofNat 32 (syms.flatMap s.codeAt).length, pending := none, done := true }) ∧
    (syms.length < s.total.toNat → tail = [] → exec .parse s = .next
      { s with olen := 0#32, symOut := [], error := some .malformedStream, errIdx := s.blen, pending := none,
               done := true }) ∧
    (syms.length = s.total.toNat → tail = [] → ∃ out, exec .parse s = .next
      { s with symOut := out, olen := s.total, pending := none, done := true } ∧
      (∀ i, i < s.total.toNat → Memory.read out i = syms[i]?) ∧
      (∀ i, s.total.toNat ≤ i → Memory.read out i = Memory.read s.symOut i))

/-- 44_decoder.md, "Tree-walk equivalence" (R182, derived there): on every stream the matcher's loop answers what the
walk of the tree answers, errors and ERRIDX included. -/
def Obligations.MatcherEqualsTreeWalk : Prop :=
  ∀ (s : State) (r : NodeIdx), s.FreqOk → s.TreeOk → s.CodesOk → s.codesValid = true → 2 ≤ s.ndistinct.toNat →
    s.root = some r → ∀ (total : Nat) (bits : Code),
      scanBits s.codeAt total bits 0 0 [] [] = treeWalk s.nodeAt r total bits 0 0 r []

/-- R162, R161: ENCODE of an input whose stream fits counts it, builds the tree and the codes, and packs the codes of
the input, the last word padded with zeros; BLEN is the sum of FREQ[s] × CLEN[s]. Nothing else changes: no node past
the tree, no BITS word past the stream. -/
def Obligations.EncodeCompletes : Prop :=
  ∀ s : State, s.params.legal = true → s.ilen.toNat ≤ s.params.symCap →
    (s.inputSymbols.flatMap (entry (codesOf (countTable s.inputSymbols)))).length ≤ s.params.bitCap →
    ∃ t, exec .encode s = .next t ∧
      t = { s with
        freq := t.freq, total := s.ilen, ndistinct := t.ndistinct, nodes := t.nodes, root := t.root,
        nnodes := t.nnodes, codes := t.codes, maxlen := t.maxlen, bits := t.bits, blen := t.blen, treeValid := true,
        codesValid := true, pending := none, done := true } ∧
      (∀ y, (entry t.freq y).toNat = s.inputSymbols.count y) ∧ t.FreqOk ∧ t.HoldsTree ∧ t.HoldsCodes ∧
      t.streamBits = s.inputSymbols.flatMap t.codeAt ∧
      (∀ i, (treeArena t.freq).length ≤ i → Memory.read t.nodes i = Memory.read s.nodes i) ∧
      (∀ w, w < (t.blen.toNat + 31) / 32 → ∃ v, Memory.read t.bits w = some v ∧ ∀ b, b < 32 →
        v.getLsbD (31 - b) = ((s.inputSymbols.flatMap t.codeAt)[32 * w + b]?).getD false) ∧
      (∀ w, (t.blen.toNat + 31) / 32 ≤ w → Memory.read t.bits w = Memory.read s.bits w) ∧
      t.blen.toNat = weightedLength t.freq t.codeAt

/-- R162, R222: ENCODE of an input longer than SYM_CAP changes nothing but BLEN and the completion; of an input whose
stream exceeds BIT_CAP it is CapacityExceeded at the first symbol that does not fit, the counts of the input, their tree
and codes stand and are valid, no node past the tree changes, and no BITS word holds a value. -/
def Obligations.EncodeCapacityErrors : Prop :=
  ∀ s : State, s.params.legal = true →
    (s.params.symCap < s.ilen.toNat → exec .encode s = .next
      { s with blen := 0#32, error := some .capacityExceeded, errIdx := s.ilen, pending := none, done := true }) ∧
    (s.ilen.toNat ≤ s.params.symCap → ∀ i, i < s.ilen.toNat →
      ((s.inputSymbols.take i).flatMap (entry (codesOf (countTable s.inputSymbols)))).length ≤ s.params.bitCap →
      s.params.bitCap < ((s.inputSymbols.take (i + 1)).flatMap (entry (codesOf (countTable s.inputSymbols)))).length →
      ∃ t, exec .encode s = .next t ∧
        t = { s with
          freq := t.freq, total := s.ilen, ndistinct := t.ndistinct, nodes := t.nodes, root := t.root,
          nnodes := t.nnodes, codes := t.codes, maxlen := t.maxlen, bits := [], blen := 0#32, treeValid := true,
          codesValid := true, error := some .capacityExceeded, errIdx := BitVec.ofNat 32 i, pending := none,
          done := true } ∧
        (∀ y, (entry t.freq y).toNat = s.inputSymbols.count y) ∧ t.FreqOk ∧ t.HoldsTree ∧ t.HoldsCodes ∧
        ∀ j, (treeArena t.freq).length ≤ j → Memory.read t.nodes j = Memory.read s.nodes j)

/-- R162, R184: ENCODE is FREQ_COUNT, BUILD, GEN and MAP in one step, and DECODE is BUILD, GEN and PARSE: whenever the
commands before the last one complete without error in sequence, the composite ends as the last one after them ends. -/
def Obligations.CompositeCommandsAreTheirParts : Prop :=
  ∀ s t₁ t₂ t₃ : State,
    (s.error = none → exec .freqCount s = .next t₁ → t₁.error = none → exec .build t₁ = .next t₂ →
      exec .gen t₂ = .next t₃ → exec .encode s = exec .map t₃) ∧
    (exec .build s = .next t₁ → exec .gen t₁ = .next t₂ → exec .decode s = exec .parse t₂)

/-- R184: DECODE of the codes of TOTAL symbols of the table rebuilds the tree and the codes and outputs the symbols.
Nothing else changes: no node past the tree, no SYM_OUT entry past the output. -/
def Obligations.DecodeCompletes : Prop :=
  ∀ (s : State) (syms : List Symbol), s.FreqOk → 2 ≤ s.ndistinct.toNat →
    s.blen.toNat ≤ s.params.bitCap → s.total.toNat ≤ s.params.symCap → syms.length = s.total.toNat →
    (∀ y ∈ syms, entry s.freq y ≠ 0#32) → s.streamBits = syms.flatMap (entry (codesOf s.freq)) →
    ∃ t, exec .decode s = .next t ∧
      t = { s with
        nodes := t.nodes, root := t.root, nnodes := t.nnodes, codes := t.codes, maxlen := t.maxlen,
        symOut := t.symOut, olen := s.total, treeValid := true, codesValid := true, pending := none, done := true } ∧
      t.HoldsTree ∧ t.HoldsCodes ∧
      (∀ i, (treeArena s.freq).length ≤ i → Memory.read t.nodes i = Memory.read s.nodes i) ∧
      (∀ i, i < s.total.toNat → Memory.read t.symOut i = syms[i]?) ∧
      (∀ i, s.total.toNat ≤ i → Memory.read t.symOut i = Memory.read s.symOut i)

/-- 44_decoder.md, "Round trip" (R185, derived there): what ENCODE made of SYM_IN[0..n−1] without error, DECODE turns
back into it, on the same instance or another one that holds the same FREQ, BITS words and BLEN. -/
def Obligations.DecodeInvertsEncode : Prop :=
  ∀ s t u : State, s.params.legal = true → s.error = none → exec .encode s = .next t → t.error = none →
    u.freq = t.freq → u.total = t.total → u.ndistinct = t.ndistinct → u.blen = t.blen →
    (∀ w, w < (t.blen.toNat + 31) / 32 → Memory.read u.bits w = Memory.read t.bits w) →
    s.ilen.toNat ≤ u.params.symCap → t.blen.toNat ≤ u.params.bitCap →
    ∃ v, exec .decode u = .next v ∧ v.error = u.error ∧ v.errIdx = u.errIdx ∧ v.olen = s.ilen ∧
      ∀ i, i < s.ilen.toNat → Memory.read v.symOut i = some (s.symInAt i)

/-- 44_decoder.md, "Truncation" (R186, derived there): a stream ENCODE made from two symbols or more, one bit shorter,
is MalformedStream. -/
def Obligations.TruncatedStreamIsMalformed : Prop :=
  ∀ s t u : State, s.params.legal = true → s.error = none → exec .encode s = .next t → t.error = none →
    2 ≤ t.ndistinct.toNat → u.freq = t.freq → u.total = t.total → u.ndistinct = t.ndistinct →
    u.blen.toNat + 1 = t.blen.toNat →
    (∀ w, w < (t.blen.toNat + 31) / 32 → Memory.read u.bits w = Memory.read t.bits w) →
    s.ilen.toNat ≤ u.params.symCap → t.blen.toNat ≤ u.params.bitCap →
    ∃ v, exec .decode u = .next v ∧ v.error = some .malformedStream ∧ v.olen = 0#32 ∧ v.symOut = []

/-! ## Whole-machine rules -/

/-- R220: from a state without an error record each command ends with no error or with one of the kinds listed for it
(R163: ENCODE never NotReady or UnknownSymbol; R182: no UnknownSymbol on the decode side). -/
def Obligations.ErrorKindsPerCommand : Prop :=
  ∀ (i : Instr) (s t : State) (k : ErrorKind), s.params.legal = true → s.error = none → exec i s = .next t →
    t.error = some k → k ∈ mayRaise i

/-- R46, R47: which commands can set and which can clear TREE_VALID and CODES_VALID. -/
def Obligations.ValidityFlagWriters : Prop :=
  ∀ (i : Instr) (s t : State), exec i s = .next t →
    (s.treeValid = false → t.treeValid = true → i = .build ∨ i = .encode ∨ i = .decode) ∧
    (s.treeValid = true → t.treeValid = false → (∃ y, i = .freqSet y) ∨ i = .freqCount ∨ i = .clear) ∧
    (s.codesValid = false → t.codesValid = true → i = .gen ∨ i = .encode ∨ i = .decode) ∧
    (s.codesValid = true → t.codesValid = false →
      (∃ y, i = .freqSet y) ∨ i = .freqCount ∨ i = .clear ∨ i = .build)

/-- R257: after FREQ_SET, FREQ_COUNT or CLEAR without error, GEN, MAP and PARSE raise NotReady. -/
def Obligations.StaleTablesAreNotReady : Prop :=
  ∀ (i : Instr) (s t : State), ((∃ y, i = .freqSet y) ∨ i = .freqCount ∨ i = .clear) → s.error = none →
    exec i s = .next t → t.error = none →
    (∃ u, exec .gen t = .next u ∧ u.error = some .notReady) ∧
    (∃ u, exec .map t = .next u ∧ u.error = some .notReady) ∧
    (∃ u, exec .parse t = .next u ∧ u.error = some .notReady)

/-- 70_reset_and_hazards.md R261 (derived there): SYM_IN words from ILEN on are never read by FREQ_COUNT, MAP or ENCODE,
and BITS words past ceil(BLEN/32) never by PARSE or DECODE. -/
def Obligations.UnreadWordsDoNotMatter : Prop :=
  ∀ (s t : State) (i : Instr),
    (∀ m : Memory Symbol, i = .freqCount ∨ i = .map ∨ i = .encode →
      (∀ j, j < s.ilen.toNat → Memory.read m j = Memory.read s.symIn j) → exec i s = .next t →
      exec i { s with symIn := m } = .next { t with symIn := m }) ∧
    (∀ m : Memory Word, i = .parse ∨ i = .decode →
      (∀ w, w < (s.blen.toNat + 31) / 32 → Memory.read m w = Memory.read s.bits w) → exec i s = .next t →
      exec i { s with bits := m } = .next { t with bits := m })

/-- 95_test_vectors.md L3-5: a CMD write of GEN after one of BUILD is refused with OVERRUN when the engine has not yet
executed BUILD, and runs when it has; both interleavings, as agendas (log 2), are behaviours of the model (R7, R254). -/
def Obligations.CommandOverrunInterleavings : Prop :=
  ∀ (s : State) (rest : List Turn), s.pending = none →
    (∃ t, runSteps 3 { s with agenda := [wrTurn (.reg .cmd) 0x04000000#32, wrTurn (.reg .cmd) 0x05000000#32,
        .engine] ++ rest } = .next t ∧ t.overrun = true ∧ t.cmdLast = 0x04000000#32 ∧ t.treeValid = true ∧
        t.codesValid = false ∧ t.pending = none ∧ t.done = true ∧ t.agenda = rest) ∧
    (∃ t, runSteps 4 { s with agenda := [wrTurn (.reg .cmd) 0x04000000#32, .engine,
        wrTurn (.reg .cmd) 0x05000000#32, .engine] ++ rest } = .next t ∧ t.overrun = s.overrun ∧
        t.cmdLast = 0x05000000#32 ∧ t.treeValid = true ∧ t.codesValid = true ∧ t.error = none ∧ t.pending = none ∧
        t.done = true ∧ t.agenda = rest)

/-- 70_reset_and_hazards.md R252 (derived there): right after reset ENCODE encodes the empty input, DECODE decodes the
empty table, BUILD is legal, and GEN, MAP and PARSE raise NotReady. -/
def Obligations.LegalCommandsAfterReset : Prop :=
  ∀ p : Params, p.legal = true →
    (∃ t, exec .encode (State.resetWith p) = .next t ∧ t.error = none ∧ t.blen = 0#32 ∧ t.codesValid = true) ∧
    (∃ t, exec .decode (State.resetWith p) = .next t ∧ t.error = none ∧ t.olen = 0#32 ∧ t.codesValid = true) ∧
    (∃ t, exec .build (State.resetWith p) = .next t ∧ t.error = none ∧ t.root = none ∧ t.nnodes = 0#10) ∧
    (∃ t, exec .gen (State.resetWith p) = .next t ∧ t.error = some .notReady) ∧
    (∃ t, exec .map (State.resetWith p) = .next t ∧ t.error = some .notReady) ∧
    (∃ t, exec .parse (State.resetWith p) = .next t ∧ t.error = some .notReady)

/-- The invariant holds at reset, for all legal parameters (R45, R50). -/
def Obligations.ResetMeetsTheInvariant : Prop := ∀ p : Params, p.legal = true → (State.resetWith p).Inv

/-- Every step keeps the invariant (R45 to R48, R36, R51): TOTAL and NDISTINCT match FREQ, valid tables are those of
FREQ, the latch and the error record agree, every array is canonical and in bounds, SYM_OUT below OLEN holds values. -/
def Obligations.StepKeepsTheInvariant : Prop := ∀ s t : State, s.Inv → step s = .next t → t.Inv
end

