-- ==== Sys2Proof/Laws/Memory.lean ====
section
/-! SUPPORT. The arrays of Machine/Ops.lean: a read after a write, and the canonical form and the bounds every write
keeps. -/

namespace Sys2Proof.Machine

@[simp] theorem Memory.read_nil {α : Type} (i : Nat) : Memory.read ([] : Memory α) i = none := rfl

theorem Memory.read_write_same {α : Type} (m : Memory α) (i : Nat) (v : α) :
    Memory.read (Memory.write m i v) i = some v := by
  induction m with
  | nil => simp [Memory.write, Memory.read]
  | cons c m ih =>
    obtain ⟨j, u⟩ := c
    simp only [Memory.write]
    split
    · simp [Memory.read]
    · split
      · simp [Memory.read]
      · simp [Memory.read, *]

theorem Memory.read_write_other {α : Type} (m : Memory α) (i k : Nat) (v : α) (h : k ≠ i) :
    Memory.read (Memory.write m i v) k = Memory.read m k := by
  induction m with
  | nil => simp [Memory.write, Memory.read, h]
  | cons c m ih =>
    obtain ⟨j, u⟩ := c
    simp only [Memory.write]
    split
    · simp [Memory.read, h]
    · split
      · subst_vars; simp [Memory.read, h]
      · simp [Memory.read, ih]

/-- A write, said once. -/
theorem Memory.read_write {α : Type} (m : Memory α) (i k : Nat) (v : α) :
    Memory.read (Memory.write m i v) k = if k = i then some v else Memory.read m k := by
  split
  · subst_vars; exact Memory.read_write_same m _ v
  · exact Memory.read_write_other m i k v ‹_›

theorem Memory.mem_write {α : Type} {m : Memory α} {i : Nat} {v : α} {c : Nat × α}
    (h : c ∈ Memory.write m i v) : c = (i, v) ∨ c ∈ m := by
  induction m with
  | nil => simpa [Memory.write] using h
  | cons d m ih =>
    obtain ⟨j, u⟩ := d
    simp only [Memory.write] at h
    split at h
    · simpa using h
    · split at h
      · rcases List.mem_cons.1 h with h | h
        · exact .inl h
        · exact .inr (List.mem_cons_of_mem _ h)
      · rcases List.mem_cons.1 h with h | h
        · exact .inr (h ▸ List.mem_cons_self)
        · exact (ih h).imp_right (List.mem_cons_of_mem _)

/-- A write keeps the canonical form. -/
theorem Memory.wf_write {α : Type} {m : Memory α} (i : Nat) (v : α) (h : Memory.wf m) :
    Memory.wf (Memory.write m i v) := by
  induction m with
  | nil => exact List.pairwise_singleton _ _
  | cons c m ih =>
    obtain ⟨j, u⟩ := c
    simp only [Memory.wf, List.map_cons, List.pairwise_cons, List.mem_map] at h ih ⊢
    simp only [Memory.write]
    split
    · rename_i hij
      simp only [List.map_cons, List.pairwise_cons, List.mem_cons, List.mem_map]
      refine ⟨?_, h⟩
      rintro a (rfl | ha)
      · exact hij
      · exact hij.trans (h.1 a ha)
    · split
      · subst_vars
        simpa using h
      · rename_i h1 h2
        simp only [List.map_cons, List.pairwise_cons, List.mem_map]
        refine ⟨?_, ih h.2⟩
        rintro a ⟨c, hc, rfl⟩
        rcases Memory.mem_write hc with rfl | hc
        · exact Nat.lt_of_le_of_ne (Nat.not_lt.1 h1) (Ne.symm h2)
        · exact h.1 _ ⟨c, hc, rfl⟩

/-- A write below a bound keeps the bound. -/
theorem Memory.below_write {α : Type} {m : Memory α} {n i : Nat} (v : α) (h : Memory.below m n) (hi : i < n) :
    Memory.below (Memory.write m i v) n := by
  intro c hc
  rcases Memory.mem_write hc with rfl | hc
  · exact hi
  · exact h c hc

/-- Writes in order, said once. -/
theorem Memory.read_writeFrom {α : Type} (vs : List α) (m : Memory α) (i k : Nat) :
    Memory.read (Memory.writeFrom m i vs) k =
      if i ≤ k ∧ k < i + vs.length then vs[k - i]? else Memory.read m k := by
  induction vs generalizing m i with
  | nil => rw [if_neg (by simp)]; rfl
  | cons v vs ih =>
    rw [Memory.writeFrom, ih, Memory.read_write, List.length_cons]
    by_cases hk : k = i
    · subst hk; simp
    · by_cases h : i + 1 ≤ k ∧ k < i + 1 + vs.length
      · rw [if_pos h, if_pos (by omega), show k - i = (k - (i + 1)) + 1 by omega, List.getElem?_cons_succ]
      · rw [if_neg h, if_neg hk, if_neg (by omega)]

theorem Memory.wf_writeFrom {α : Type} (vs : List α) {m : Memory α} (i : Nat) (h : Memory.wf m) :
    Memory.wf (Memory.writeFrom m i vs) := by
  induction vs generalizing m i with
  | nil => exact h
  | cons v vs ih => exact ih (i + 1) (Memory.wf_write i v h)

theorem Memory.below_writeFrom {α : Type} (vs : List α) {m : Memory α} {n : Nat} (i : Nat) (h : Memory.below m n)
    (hi : i + vs.length ≤ n) : Memory.below (Memory.writeFrom m i vs) n := by
  induction vs generalizing m i with
  | nil => exact h
  | cons v vs ih =>
    rw [List.length_cons] at hi
    exact ih (i + 1) (Memory.below_write v h (by omega)) (by omega)

/-- Past its bound an array holds no value. -/
theorem Memory.read_of_below {α : Type} {m : Memory α} {n i : Nat} (h : Memory.below m n) (hi : n ≤ i) :
    Memory.read m i = none := by
  induction m with
  | nil => rfl
  | cons c m ih =>
    obtain ⟨j, u⟩ := c
    have hj : j < n := h (j, u) List.mem_cons_self
    rw [Memory.read, if_neg (by omega)]
    exact ih fun c hc => h c (List.mem_cons_of_mem _ hc)

end Sys2Proof.Machine
end

