-- ==== Sys2Proof/Laws/State.lean ====
section
/-! SUPPORT. One lemma per field of State and named update (Machine/Ops.lean, Machine/Flags.lean): what the update
leaves in the field. -/

namespace Sys2Proof.Machine

/-! ## accept -/

@[simp] theorem State.accept_params (s : State) (v : Word) : (s.accept v).params = s.params := rfl
@[simp] theorem State.accept_irqEn (s : State) (v : Word) : (s.accept v).irqEn = s.irqEn := rfl
@[simp] theorem State.accept_done (s : State) (v : Word) : (s.accept v).done = false := rfl
@[simp] theorem State.accept_overrun (s : State) (v : Word) : (s.accept v).overrun = s.overrun := rfl
@[simp] theorem State.accept_accessErr (s : State) (v : Word) : (s.accept v).accessErr = s.accessErr := rfl
@[simp] theorem State.accept_treeValid (s : State) (v : Word) : (s.accept v).treeValid = s.treeValid := rfl
@[simp] theorem State.accept_codesValid (s : State) (v : Word) : (s.accept v).codesValid = s.codesValid := rfl
@[simp] theorem State.accept_error (s : State) (v : Word) : (s.accept v).error = none := rfl
@[simp] theorem State.accept_errIdx (s : State) (v : Word) : (s.accept v).errIdx = 0#32 := rfl
@[simp] theorem State.accept_cmdLast (s : State) (v : Word) : (s.accept v).cmdLast = v := rfl
@[simp] theorem State.accept_arg (s : State) (v : Word) : (s.accept v).arg = s.arg := rfl
@[simp] theorem State.accept_ilen (s : State) (v : Word) : (s.accept v).ilen = s.ilen := rfl
@[simp] theorem State.accept_blen (s : State) (v : Word) : (s.accept v).blen = s.blen := rfl
@[simp] theorem State.accept_olen (s : State) (v : Word) : (s.accept v).olen = s.olen := rfl
@[simp] theorem State.accept_total (s : State) (v : Word) : (s.accept v).total = s.total := rfl
@[simp] theorem State.accept_ndistinct (s : State) (v : Word) : (s.accept v).ndistinct = s.ndistinct := rfl
@[simp] theorem State.accept_root (s : State) (v : Word) : (s.accept v).root = s.root := rfl
@[simp] theorem State.accept_nnodes (s : State) (v : Word) : (s.accept v).nnodes = s.nnodes := rfl
@[simp] theorem State.accept_maxlen (s : State) (v : Word) : (s.accept v).maxlen = s.maxlen := rfl
@[simp] theorem State.accept_pending (s : State) (v : Word) : (s.accept v).pending = some v := rfl
@[simp] theorem State.accept_freq (s : State) (v : Word) : (s.accept v).freq = s.freq := rfl
@[simp] theorem State.accept_codes (s : State) (v : Word) : (s.accept v).codes = s.codes := rfl
@[simp] theorem State.accept_nodes (s : State) (v : Word) : (s.accept v).nodes = s.nodes := rfl
@[simp] theorem State.accept_symIn (s : State) (v : Word) : (s.accept v).symIn = s.symIn := rfl
@[simp] theorem State.accept_symOut (s : State) (v : Word) : (s.accept v).symOut = s.symOut := rfl
@[simp] theorem State.accept_bits (s : State) (v : Word) : (s.accept v).bits = s.bits := rfl
@[simp] theorem State.accept_agenda (s : State) (v : Word) : (s.accept v).agenda = s.agenda := rfl
@[simp] theorem State.accept_draws (s : State) (v : Word) : (s.accept v).draws = s.draws := rfl
@[simp] theorem State.accept_readData (s : State) (v : Word) : (s.accept v).readData = s.readData := rfl

/-! ## complete -/

@[simp] theorem State.complete_params (s : State) : s.complete.params = s.params := rfl
@[simp] theorem State.complete_irqEn (s : State) : s.complete.irqEn = s.irqEn := rfl
@[simp] theorem State.complete_done (s : State) : s.complete.done = true := rfl
@[simp] theorem State.complete_overrun (s : State) : s.complete.overrun = s.overrun := rfl
@[simp] theorem State.complete_accessErr (s : State) : s.complete.accessErr = s.accessErr := rfl
@[simp] theorem State.complete_treeValid (s : State) : s.complete.treeValid = s.treeValid := rfl
@[simp] theorem State.complete_codesValid (s : State) : s.complete.codesValid = s.codesValid := rfl
@[simp] theorem State.complete_error (s : State) : s.complete.error = s.error := rfl
@[simp] theorem State.complete_errIdx (s : State) : s.complete.errIdx = s.errIdx := rfl
@[simp] theorem State.complete_cmdLast (s : State) : s.complete.cmdLast = s.cmdLast := rfl
@[simp] theorem State.complete_arg (s : State) : s.complete.arg = s.arg := rfl
@[simp] theorem State.complete_ilen (s : State) : s.complete.ilen = s.ilen := rfl
@[simp] theorem State.complete_blen (s : State) : s.complete.blen = s.blen := rfl
@[simp] theorem State.complete_olen (s : State) : s.complete.olen = s.olen := rfl
@[simp] theorem State.complete_total (s : State) : s.complete.total = s.total := rfl
@[simp] theorem State.complete_ndistinct (s : State) : s.complete.ndistinct = s.ndistinct := rfl
@[simp] theorem State.complete_root (s : State) : s.complete.root = s.root := rfl
@[simp] theorem State.complete_nnodes (s : State) : s.complete.nnodes = s.nnodes := rfl
@[simp] theorem State.complete_maxlen (s : State) : s.complete.maxlen = s.maxlen := rfl
@[simp] theorem State.complete_pending (s : State) : s.complete.pending = none := rfl
@[simp] theorem State.complete_freq (s : State) : s.complete.freq = s.freq := rfl
@[simp] theorem State.complete_codes (s : State) : s.complete.codes = s.codes := rfl
@[simp] theorem State.complete_nodes (s : State) : s.complete.nodes = s.nodes := rfl
@[simp] theorem State.complete_symIn (s : State) : s.complete.symIn = s.symIn := rfl
@[simp] theorem State.complete_symOut (s : State) : s.complete.symOut = s.symOut := rfl
@[simp] theorem State.complete_bits (s : State) : s.complete.bits = s.bits := rfl
@[simp] theorem State.complete_agenda (s : State) : s.complete.agenda = s.agenda := rfl
@[simp] theorem State.complete_draws (s : State) : s.complete.draws = s.draws := rfl
@[simp] theorem State.complete_readData (s : State) : s.complete.readData = s.readData := rfl

/-! ## raise -/

@[simp] theorem State.raise_params (s : State) (k : ErrorKind) (idx : Word) : (s.raise k idx).params = s.params := rfl
@[simp] theorem State.raise_irqEn (s : State) (k : ErrorKind) (idx : Word) : (s.raise k idx).irqEn = s.irqEn := rfl
@[simp] theorem State.raise_done (s : State) (k : ErrorKind) (idx : Word) : (s.raise k idx).done = true := rfl
@[simp] theorem State.raise_overrun (s : State) (k : ErrorKind) (idx : Word) : (s.raise k idx).overrun = s.overrun := rfl
@[simp] theorem State.raise_accessErr (s : State) (k : ErrorKind) (idx : Word) : (s.raise k idx).accessErr = s.accessErr := rfl
@[simp] theorem State.raise_treeValid (s : State) (k : ErrorKind) (idx : Word) : (s.raise k idx).treeValid = s.treeValid := rfl
@[simp] theorem State.raise_codesValid (s : State) (k : ErrorKind) (idx : Word) : (s.raise k idx).codesValid = s.codesValid := rfl
@[simp] theorem State.raise_error (s : State) (k : ErrorKind) (idx : Word) : (s.raise k idx).error = some k := rfl
@[simp] theorem State.raise_errIdx (s : State) (k : ErrorKind) (idx : Word) : (s.raise k idx).errIdx = idx := rfl
@[simp] theorem State.raise_cmdLast (s : State) (k : ErrorKind) (idx : Word) : (s.raise k idx).cmdLast = s.cmdLast := rfl
@[simp] theorem State.raise_arg (s : State) (k : ErrorKind) (idx : Word) : (s.raise k idx).arg = s.arg := rfl
@[simp] theorem State.raise_ilen (s : State) (k : ErrorKind) (idx : Word) : (s.raise k idx).ilen = s.ilen := rfl
@[simp] theorem State.raise_blen (s : State) (k : ErrorKind) (idx : Word) : (s.raise k idx).blen = s.blen := rfl
@[simp] theorem State.raise_olen (s : State) (k : ErrorKind) (idx : Word) : (s.raise k idx).olen = s.olen := rfl
@[simp] theorem State.raise_total (s : State) (k : ErrorKind) (idx : Word) : (s.raise k idx).total = s.total := rfl
@[simp] theorem State.raise_ndistinct (s : State) (k : ErrorKind) (idx : Word) : (s.raise k idx).ndistinct = s.ndistinct := rfl
@[simp] theorem State.raise_root (s : State) (k : ErrorKind) (idx : Word) : (s.raise k idx).root = s.root := rfl
@[simp] theorem State.raise_nnodes (s : State) (k : ErrorKind) (idx : Word) : (s.raise k idx).nnodes = s.nnodes := rfl
@[simp] theorem State.raise_maxlen (s : State) (k : ErrorKind) (idx : Word) : (s.raise k idx).maxlen = s.maxlen := rfl
@[simp] theorem State.raise_pending (s : State) (k : ErrorKind) (idx : Word) : (s.raise k idx).pending = none := rfl
@[simp] theorem State.raise_freq (s : State) (k : ErrorKind) (idx : Word) : (s.raise k idx).freq = s.freq := rfl
@[simp] theorem State.raise_codes (s : State) (k : ErrorKind) (idx : Word) : (s.raise k idx).codes = s.codes := rfl
@[simp] theorem State.raise_nodes (s : State) (k : ErrorKind) (idx : Word) : (s.raise k idx).nodes = s.nodes := rfl
@[simp] theorem State.raise_symIn (s : State) (k : ErrorKind) (idx : Word) : (s.raise k idx).symIn = s.symIn := rfl
@[simp] theorem State.raise_symOut (s : State) (k : ErrorKind) (idx : Word) : (s.raise k idx).symOut = s.symOut := rfl
@[simp] theorem State.raise_bits (s : State) (k : ErrorKind) (idx : Word) : (s.raise k idx).bits = s.bits := rfl
@[simp] theorem State.raise_agenda (s : State) (k : ErrorKind) (idx : Word) : (s.raise k idx).agenda = s.agenda := rfl
@[simp] theorem State.raise_draws (s : State) (k : ErrorKind) (idx : Word) : (s.raise k idx).draws = s.draws := rfl
@[simp] theorem State.raise_readData (s : State) (k : ErrorKind) (idx : Word) : (s.raise k idx).readData = s.readData := rfl

/-! ## setFreq -/

@[simp] theorem State.setFreq_params (s : State) (f : Vector Word 256) (n : Word) (d : BitVec 9) : (s.setFreq f n d).params = s.params := rfl
@[simp] theorem State.setFreq_irqEn (s : State) (f : Vector Word 256) (n : Word) (d : BitVec 9) : (s.setFreq f n d).irqEn = s.irqEn := rfl
@[simp] theorem State.setFreq_done (s : State) (f : Vector Word 256) (n : Word) (d : BitVec 9) : (s.setFreq f n d).done = s.done := rfl
@[simp] theorem State.setFreq_overrun (s : State) (f : Vector Word 256) (n : Word) (d : BitVec 9) : (s.setFreq f n d).overrun = s.overrun := rfl
@[simp] theorem State.setFreq_accessErr (s : State) (f : Vector Word 256) (n : Word) (d : BitVec 9) : (s.setFreq f n d).accessErr = s.accessErr := rfl
@[simp] theorem State.setFreq_treeValid (s : State) (f : Vector Word 256) (n : Word) (d : BitVec 9) : (s.setFreq f n d).treeValid = false := rfl
@[simp] theorem State.setFreq_codesValid (s : State) (f : Vector Word 256) (n : Word) (d : BitVec 9) : (s.setFreq f n d).codesValid = false := rfl
@[simp] theorem State.setFreq_error (s : State) (f : Vector Word 256) (n : Word) (d : BitVec 9) : (s.setFreq f n d).error = s.error := rfl
@[simp] theorem State.setFreq_errIdx (s : State) (f : Vector Word 256) (n : Word) (d : BitVec 9) : (s.setFreq f n d).errIdx = s.errIdx := rfl
@[simp] theorem State.setFreq_cmdLast (s : State) (f : Vector Word 256) (n : Word) (d : BitVec 9) : (s.setFreq f n d).cmdLast = s.cmdLast := rfl
@[simp] theorem State.setFreq_arg (s : State) (f : Vector Word 256) (n : Word) (d : BitVec 9) : (s.setFreq f n d).arg = s.arg := rfl
@[simp] theorem State.setFreq_ilen (s : State) (f : Vector Word 256) (n : Word) (d : BitVec 9) : (s.setFreq f n d).ilen = s.ilen := rfl
@[simp] theorem State.setFreq_blen (s : State) (f : Vector Word 256) (n : Word) (d : BitVec 9) : (s.setFreq f n d).blen = s.blen := rfl
@[simp] theorem State.setFreq_olen (s : State) (f : Vector Word 256) (n : Word) (d : BitVec 9) : (s.setFreq f n d).olen = s.olen := rfl
@[simp] theorem State.setFreq_total (s : State) (f : Vector Word 256) (n : Word) (d : BitVec 9) : (s.setFreq f n d).total = n := rfl
@[simp] theorem State.setFreq_ndistinct (s : State) (f : Vector Word 256) (n : Word) (d : BitVec 9) : (s.setFreq f n d).ndistinct = d := rfl
@[simp] theorem State.setFreq_root (s : State) (f : Vector Word 256) (n : Word) (d : BitVec 9) : (s.setFreq f n d).root = s.root := rfl
@[simp] theorem State.setFreq_nnodes (s : State) (f : Vector Word 256) (n : Word) (d : BitVec 9) : (s.setFreq f n d).nnodes = s.nnodes := rfl
@[simp] theorem State.setFreq_maxlen (s : State) (f : Vector Word 256) (n : Word) (d : BitVec 9) : (s.setFreq f n d).maxlen = s.maxlen := rfl
@[simp] theorem State.setFreq_pending (s : State) (f : Vector Word 256) (n : Word) (d : BitVec 9) : (s.setFreq f n d).pending = s.pending := rfl
@[simp] theorem State.setFreq_freq (s : State) (f : Vector Word 256) (n : Word) (d : BitVec 9) : (s.setFreq f n d).freq = f := rfl
@[simp] theorem State.setFreq_codes (s : State) (f : Vector Word 256) (n : Word) (d : BitVec 9) : (s.setFreq f n d).codes = s.codes := rfl
@[simp] theorem State.setFreq_nodes (s : State) (f : Vector Word 256) (n : Word) (d : BitVec 9) : (s.setFreq f n d).nodes = s.nodes := rfl
@[simp] theorem State.setFreq_symIn (s : State) (f : Vector Word 256) (n : Word) (d : BitVec 9) : (s.setFreq f n d).symIn = s.symIn := rfl
@[simp] theorem State.setFreq_symOut (s : State) (f : Vector Word 256) (n : Word) (d : BitVec 9) : (s.setFreq f n d).symOut = s.symOut := rfl
@[simp] theorem State.setFreq_bits (s : State) (f : Vector Word 256) (n : Word) (d : BitVec 9) : (s.setFreq f n d).bits = s.bits := rfl
@[simp] theorem State.setFreq_agenda (s : State) (f : Vector Word 256) (n : Word) (d : BitVec 9) : (s.setFreq f n d).agenda = s.agenda := rfl
@[simp] theorem State.setFreq_draws (s : State) (f : Vector Word 256) (n : Word) (d : BitVec 9) : (s.setFreq f n d).draws = s.draws := rfl
@[simp] theorem State.setFreq_readData (s : State) (f : Vector Word 256) (n : Word) (d : BitVec 9) : (s.setFreq f n d).readData = s.readData := rfl

/-! ## setTree -/

@[simp] theorem State.setTree_params (s : State) (a : List Node) (r : Option NodeIdx) : (s.setTree a r).params = s.params := rfl
@[simp] theorem State.setTree_irqEn (s : State) (a : List Node) (r : Option NodeIdx) : (s.setTree a r).irqEn = s.irqEn := rfl
@[simp] theorem State.setTree_done (s : State) (a : List Node) (r : Option NodeIdx) : (s.setTree a r).done = s.done := rfl
@[simp] theorem State.setTree_overrun (s : State) (a : List Node) (r : Option NodeIdx) : (s.setTree a r).overrun = s.overrun := rfl
@[simp] theorem State.setTree_accessErr (s : State) (a : List Node) (r : Option NodeIdx) : (s.setTree a r).accessErr = s.accessErr := rfl
@[simp] theorem State.setTree_treeValid (s : State) (a : List Node) (r : Option NodeIdx) : (s.setTree a r).treeValid = true := rfl
@[simp] theorem State.setTree_codesValid (s : State) (a : List Node) (r : Option NodeIdx) : (s.setTree a r).codesValid = false := rfl
@[simp] theorem State.setTree_error (s : State) (a : List Node) (r : Option NodeIdx) : (s.setTree a r).error = s.error := rfl
@[simp] theorem State.setTree_errIdx (s : State) (a : List Node) (r : Option NodeIdx) : (s.setTree a r).errIdx = s.errIdx := rfl
@[simp] theorem State.setTree_cmdLast (s : State) (a : List Node) (r : Option NodeIdx) : (s.setTree a r).cmdLast = s.cmdLast := rfl
@[simp] theorem State.setTree_arg (s : State) (a : List Node) (r : Option NodeIdx) : (s.setTree a r).arg = s.arg := rfl
@[simp] theorem State.setTree_ilen (s : State) (a : List Node) (r : Option NodeIdx) : (s.setTree a r).ilen = s.ilen := rfl
@[simp] theorem State.setTree_blen (s : State) (a : List Node) (r : Option NodeIdx) : (s.setTree a r).blen = s.blen := rfl
@[simp] theorem State.setTree_olen (s : State) (a : List Node) (r : Option NodeIdx) : (s.setTree a r).olen = s.olen := rfl
@[simp] theorem State.setTree_total (s : State) (a : List Node) (r : Option NodeIdx) : (s.setTree a r).total = s.total := rfl
@[simp] theorem State.setTree_ndistinct (s : State) (a : List Node) (r : Option NodeIdx) : (s.setTree a r).ndistinct = s.ndistinct := rfl
@[simp] theorem State.setTree_root (s : State) (a : List Node) (r : Option NodeIdx) : (s.setTree a r).root = r := rfl
@[simp] theorem State.setTree_nnodes (s : State) (a : List Node) (r : Option NodeIdx) : (s.setTree a r).nnodes = BitVec.ofNat 10 a.length := rfl
@[simp] theorem State.setTree_maxlen (s : State) (a : List Node) (r : Option NodeIdx) : (s.setTree a r).maxlen = s.maxlen := rfl
@[simp] theorem State.setTree_pending (s : State) (a : List Node) (r : Option NodeIdx) : (s.setTree a r).pending = s.pending := rfl
@[simp] theorem State.setTree_freq (s : State) (a : List Node) (r : Option NodeIdx) : (s.setTree a r).freq = s.freq := rfl
@[simp] theorem State.setTree_codes (s : State) (a : List Node) (r : Option NodeIdx) : (s.setTree a r).codes = s.codes := rfl
@[simp] theorem State.setTree_nodes (s : State) (a : List Node) (r : Option NodeIdx) : (s.setTree a r).nodes = Memory.writeFrom s.nodes 0 a := rfl
@[simp] theorem State.setTree_symIn (s : State) (a : List Node) (r : Option NodeIdx) : (s.setTree a r).symIn = s.symIn := rfl
@[simp] theorem State.setTree_symOut (s : State) (a : List Node) (r : Option NodeIdx) : (s.setTree a r).symOut = s.symOut := rfl
@[simp] theorem State.setTree_bits (s : State) (a : List Node) (r : Option NodeIdx) : (s.setTree a r).bits = s.bits := rfl
@[simp] theorem State.setTree_agenda (s : State) (a : List Node) (r : Option NodeIdx) : (s.setTree a r).agenda = s.agenda := rfl
@[simp] theorem State.setTree_draws (s : State) (a : List Node) (r : Option NodeIdx) : (s.setTree a r).draws = s.draws := rfl
@[simp] theorem State.setTree_readData (s : State) (a : List Node) (r : Option NodeIdx) : (s.setTree a r).readData = s.readData := rfl

/-! ## setCodes -/

@[simp] theorem State.setCodes_params (s : State) (t : CodeTable) (m : BitVec 9) : (s.setCodes t m).params = s.params := rfl
@[simp] theorem State.setCodes_irqEn (s : State) (t : CodeTable) (m : BitVec 9) : (s.setCodes t m).irqEn = s.irqEn := rfl
@[simp] theorem State.setCodes_done (s : State) (t : CodeTable) (m : BitVec 9) : (s.setCodes t m).done = s.done := rfl
@[simp] theorem State.setCodes_overrun (s : State) (t : CodeTable) (m : BitVec 9) : (s.setCodes t m).overrun = s.overrun := rfl
@[simp] theorem State.setCodes_accessErr (s : State) (t : CodeTable) (m : BitVec 9) : (s.setCodes t m).accessErr = s.accessErr := rfl
@[simp] theorem State.setCodes_treeValid (s : State) (t : CodeTable) (m : BitVec 9) : (s.setCodes t m).treeValid = s.treeValid := rfl
@[simp] theorem State.setCodes_codesValid (s : State) (t : CodeTable) (m : BitVec 9) : (s.setCodes t m).codesValid = true := rfl
@[simp] theorem State.setCodes_error (s : State) (t : CodeTable) (m : BitVec 9) : (s.setCodes t m).error = s.error := rfl
@[simp] theorem State.setCodes_errIdx (s : State) (t : CodeTable) (m : BitVec 9) : (s.setCodes t m).errIdx = s.errIdx := rfl
@[simp] theorem State.setCodes_cmdLast (s : State) (t : CodeTable) (m : BitVec 9) : (s.setCodes t m).cmdLast = s.cmdLast := rfl
@[simp] theorem State.setCodes_arg (s : State) (t : CodeTable) (m : BitVec 9) : (s.setCodes t m).arg = s.arg := rfl
@[simp] theorem State.setCodes_ilen (s : State) (t : CodeTable) (m : BitVec 9) : (s.setCodes t m).ilen = s.ilen := rfl
@[simp] theorem State.setCodes_blen (s : State) (t : CodeTable) (m : BitVec 9) : (s.setCodes t m).blen = s.blen := rfl
@[simp] theorem State.setCodes_olen (s : State) (t : CodeTable) (m : BitVec 9) : (s.setCodes t m).olen = s.olen := rfl
@[simp] theorem State.setCodes_total (s : State) (t : CodeTable) (m : BitVec 9) : (s.setCodes t m).total = s.total := rfl
@[simp] theorem State.setCodes_ndistinct (s : State) (t : CodeTable) (m : BitVec 9) : (s.setCodes t m).ndistinct = s.ndistinct := rfl
@[simp] theorem State.setCodes_root (s : State) (t : CodeTable) (m : BitVec 9) : (s.setCodes t m).root = s.root := rfl
@[simp] theorem State.setCodes_nnodes (s : State) (t : CodeTable) (m : BitVec 9) : (s.setCodes t m).nnodes = s.nnodes := rfl
@[simp] theorem State.setCodes_maxlen (s : State) (t : CodeTable) (m : BitVec 9) : (s.setCodes t m).maxlen = m := rfl
@[simp] theorem State.setCodes_pending (s : State) (t : CodeTable) (m : BitVec 9) : (s.setCodes t m).pending = s.pending := rfl
@[simp] theorem State.setCodes_freq (s : State) (t : CodeTable) (m : BitVec 9) : (s.setCodes t m).freq = s.freq := rfl
@[simp] theorem State.setCodes_codes (s : State) (t : CodeTable) (m : BitVec 9) : (s.setCodes t m).codes = some t := rfl
@[simp] theorem State.setCodes_nodes (s : State) (t : CodeTable) (m : BitVec 9) : (s.setCodes t m).nodes = s.nodes := rfl
@[simp] theorem State.setCodes_symIn (s : State) (t : CodeTable) (m : BitVec 9) : (s.setCodes t m).symIn = s.symIn := rfl
@[simp] theorem State.setCodes_symOut (s : State) (t : CodeTable) (m : BitVec 9) : (s.setCodes t m).symOut = s.symOut := rfl
@[simp] theorem State.setCodes_bits (s : State) (t : CodeTable) (m : BitVec 9) : (s.setCodes t m).bits = s.bits := rfl
@[simp] theorem State.setCodes_agenda (s : State) (t : CodeTable) (m : BitVec 9) : (s.setCodes t m).agenda = s.agenda := rfl
@[simp] theorem State.setCodes_draws (s : State) (t : CodeTable) (m : BitVec 9) : (s.setCodes t m).draws = s.draws := rfl
@[simp] theorem State.setCodes_readData (s : State) (t : CodeTable) (m : BitVec 9) : (s.setCodes t m).readData = s.readData := rfl

/-! ## setStream -/

@[simp] theorem State.setStream_params (s : State) (ws : List Word) (n : Word) : (s.setStream ws n).params = s.params := rfl
@[simp] theorem State.setStream_irqEn (s : State) (ws : List Word) (n : Word) : (s.setStream ws n).irqEn = s.irqEn := rfl
@[simp] theorem State.setStream_done (s : State) (ws : List Word) (n : Word) : (s.setStream ws n).done = s.done := rfl
@[simp] theorem State.setStream_overrun (s : State) (ws : List Word) (n : Word) : (s.setStream ws n).overrun = s.overrun := rfl
@[simp] theorem State.setStream_accessErr (s : State) (ws : List Word) (n : Word) : (s.setStream ws n).accessErr = s.accessErr := rfl
@[simp] theorem State.setStream_treeValid (s : State) (ws : List Word) (n : Word) : (s.setStream ws n).treeValid = s.treeValid := rfl
@[simp] theorem State.setStream_codesValid (s : State) (ws : List Word) (n : Word) : (s.setStream ws n).codesValid = s.codesValid := rfl
@[simp] theorem State.setStream_error (s : State) (ws : List Word) (n : Word) : (s.setStream ws n).error = s.error := rfl
@[simp] theorem State.setStream_errIdx (s : State) (ws : List Word) (n : Word) : (s.setStream ws n).errIdx = s.errIdx := rfl
@[simp] theorem State.setStream_cmdLast (s : State) (ws : List Word) (n : Word) : (s.setStream ws n).cmdLast = s.cmdLast := rfl
@[simp] theorem State.setStream_arg (s : State) (ws : List Word) (n : Word) : (s.setStream ws n).arg = s.arg := rfl
@[simp] theorem State.setStream_ilen (s : State) (ws : List Word) (n : Word) : (s.setStream ws n).ilen = s.ilen := rfl
@[simp] theorem State.setStream_blen (s : State) (ws : List Word) (n : Word) : (s.setStream ws n).blen = n := rfl
@[simp] theorem State.setStream_olen (s : State) (ws : List Word) (n : Word) : (s.setStream ws n).olen = s.olen := rfl
@[simp] theorem State.setStream_total (s : State) (ws : List Word) (n : Word) : (s.setStream ws n).total = s.total := rfl
@[simp] theorem State.setStream_ndistinct (s : State) (ws : List Word) (n : Word) : (s.setStream ws n).ndistinct = s.ndistinct := rfl
@[simp] theorem State.setStream_root (s : State) (ws : List Word) (n : Word) : (s.setStream ws n).root = s.root := rfl
@[simp] theorem State.setStream_nnodes (s : State) (ws : List Word) (n : Word) : (s.setStream ws n).nnodes = s.nnodes := rfl
@[simp] theorem State.setStream_maxlen (s : State) (ws : List Word) (n : Word) : (s.setStream ws n).maxlen = s.maxlen := rfl
@[simp] theorem State.setStream_pending (s : State) (ws : List Word) (n : Word) : (s.setStream ws n).pending = s.pending := rfl
@[simp] theorem State.setStream_freq (s : State) (ws : List Word) (n : Word) : (s.setStream ws n).freq = s.freq := rfl
@[simp] theorem State.setStream_codes (s : State) (ws : List Word) (n : Word) : (s.setStream ws n).codes = s.codes := rfl
@[simp] theorem State.setStream_nodes (s : State) (ws : List Word) (n : Word) : (s.setStream ws n).nodes = s.nodes := rfl
@[simp] theorem State.setStream_symIn (s : State) (ws : List Word) (n : Word) : (s.setStream ws n).symIn = s.symIn := rfl
@[simp] theorem State.setStream_symOut (s : State) (ws : List Word) (n : Word) : (s.setStream ws n).symOut = s.symOut := rfl
@[simp] theorem State.setStream_bits (s : State) (ws : List Word) (n : Word) : (s.setStream ws n).bits = Memory.writeFrom s.bits 0 ws := rfl
@[simp] theorem State.setStream_agenda (s : State) (ws : List Word) (n : Word) : (s.setStream ws n).agenda = s.agenda := rfl
@[simp] theorem State.setStream_draws (s : State) (ws : List Word) (n : Word) : (s.setStream ws n).draws = s.draws := rfl
@[simp] theorem State.setStream_readData (s : State) (ws : List Word) (n : Word) : (s.setStream ws n).readData = s.readData := rfl

/-! ## setOutput -/

@[simp] theorem State.setOutput_params (s : State) (o : List Symbol) : (s.setOutput o).params = s.params := rfl
@[simp] theorem State.setOutput_irqEn (s : State) (o : List Symbol) : (s.setOutput o).irqEn = s.irqEn := rfl
@[simp] theorem State.setOutput_done (s : State) (o : List Symbol) : (s.setOutput o).done = s.done := rfl
@[simp] theorem State.setOutput_overrun (s : State) (o : List Symbol) : (s.setOutput o).overrun = s.overrun := rfl
@[simp] theorem State.setOutput_accessErr (s : State) (o : List Symbol) : (s.setOutput o).accessErr = s.accessErr := rfl
@[simp] theorem State.setOutput_treeValid (s : State) (o : List Symbol) : (s.setOutput o).treeValid = s.treeValid := rfl
@[simp] theorem State.setOutput_codesValid (s : State) (o : List Symbol) : (s.setOutput o).codesValid = s.codesValid := rfl
@[simp] theorem State.setOutput_error (s : State) (o : List Symbol) : (s.setOutput o).error = s.error := rfl
@[simp] theorem State.setOutput_errIdx (s : State) (o : List Symbol) : (s.setOutput o).errIdx = s.errIdx := rfl
@[simp] theorem State.setOutput_cmdLast (s : State) (o : List Symbol) : (s.setOutput o).cmdLast = s.cmdLast := rfl
@[simp] theorem State.setOutput_arg (s : State) (o : List Symbol) : (s.setOutput o).arg = s.arg := rfl
@[simp] theorem State.setOutput_ilen (s : State) (o : List Symbol) : (s.setOutput o).ilen = s.ilen := rfl
@[simp] theorem State.setOutput_blen (s : State) (o : List Symbol) : (s.setOutput o).blen = s.blen := rfl
@[simp] theorem State.setOutput_olen (s : State) (o : List Symbol) : (s.setOutput o).olen = BitVec.ofNat 32 o.length := rfl
@[simp] theorem State.setOutput_total (s : State) (o : List Symbol) : (s.setOutput o).total = s.total := rfl
@[simp] theorem State.setOutput_ndistinct (s : State) (o : List Symbol) : (s.setOutput o).ndistinct = s.ndistinct := rfl
@[simp] theorem State.setOutput_root (s : State) (o : List Symbol) : (s.setOutput o).root = s.root := rfl
@[simp] theorem State.setOutput_nnodes (s : State) (o : List Symbol) : (s.setOutput o).nnodes = s.nnodes := rfl
@[simp] theorem State.setOutput_maxlen (s : State) (o : List Symbol) : (s.setOutput o).maxlen = s.maxlen := rfl
@[simp] theorem State.setOutput_pending (s : State) (o : List Symbol) : (s.setOutput o).pending = s.pending := rfl
@[simp] theorem State.setOutput_freq (s : State) (o : List Symbol) : (s.setOutput o).freq = s.freq := rfl
@[simp] theorem State.setOutput_codes (s : State) (o : List Symbol) : (s.setOutput o).codes = s.codes := rfl
@[simp] theorem State.setOutput_nodes (s : State) (o : List Symbol) : (s.setOutput o).nodes = s.nodes := rfl
@[simp] theorem State.setOutput_symIn (s : State) (o : List Symbol) : (s.setOutput o).symIn = s.symIn := rfl
@[simp] theorem State.setOutput_symOut (s : State) (o : List Symbol) : (s.setOutput o).symOut = Memory.writeFrom s.symOut 0 o := rfl
@[simp] theorem State.setOutput_bits (s : State) (o : List Symbol) : (s.setOutput o).bits = s.bits := rfl
@[simp] theorem State.setOutput_agenda (s : State) (o : List Symbol) : (s.setOutput o).agenda = s.agenda := rfl
@[simp] theorem State.setOutput_draws (s : State) (o : List Symbol) : (s.setOutput o).draws = s.draws := rfl
@[simp] theorem State.setOutput_readData (s : State) (o : List Symbol) : (s.setOutput o).readData = s.readData := rfl

/-! ## clearDerived -/

@[simp] theorem State.clearDerived_params (s : State) : s.clearDerived.params = s.params := rfl
@[simp] theorem State.clearDerived_irqEn (s : State) : s.clearDerived.irqEn = s.irqEn := rfl
@[simp] theorem State.clearDerived_done (s : State) : s.clearDerived.done = s.done := rfl
@[simp] theorem State.clearDerived_overrun (s : State) : s.clearDerived.overrun = s.overrun := rfl
@[simp] theorem State.clearDerived_accessErr (s : State) : s.clearDerived.accessErr = s.accessErr := rfl
@[simp] theorem State.clearDerived_treeValid (s : State) : s.clearDerived.treeValid = false := rfl
@[simp] theorem State.clearDerived_codesValid (s : State) : s.clearDerived.codesValid = false := rfl
@[simp] theorem State.clearDerived_error (s : State) : s.clearDerived.error = s.error := rfl
@[simp] theorem State.clearDerived_errIdx (s : State) : s.clearDerived.errIdx = s.errIdx := rfl
@[simp] theorem State.clearDerived_cmdLast (s : State) : s.clearDerived.cmdLast = s.cmdLast := rfl
@[simp] theorem State.clearDerived_arg (s : State) : s.clearDerived.arg = s.arg := rfl
@[simp] theorem State.clearDerived_ilen (s : State) : s.clearDerived.ilen = 0#32 := rfl
@[simp] theorem State.clearDerived_blen (s : State) : s.clearDerived.blen = 0#32 := rfl
@[simp] theorem State.clearDerived_olen (s : State) : s.clearDerived.olen = 0#32 := rfl
@[simp] theorem State.clearDerived_total (s : State) : s.clearDerived.total = 0#32 := rfl
@[simp] theorem State.clearDerived_ndistinct (s : State) : s.clearDerived.ndistinct = 0#9 := rfl
@[simp] theorem State.clearDerived_root (s : State) : s.clearDerived.root = none := rfl
@[simp] theorem State.clearDerived_nnodes (s : State) : s.clearDerived.nnodes = 0#10 := rfl
@[simp] theorem State.clearDerived_maxlen (s : State) : s.clearDerived.maxlen = 0#9 := rfl
@[simp] theorem State.clearDerived_pending (s : State) : s.clearDerived.pending = s.pending := rfl
@[simp] theorem State.clearDerived_freq (s : State) : s.clearDerived.freq = Vector.replicate 256 0#32 := rfl
@[simp] theorem State.clearDerived_codes (s : State) : s.clearDerived.codes = s.codes := rfl
@[simp] theorem State.clearDerived_nodes (s : State) : s.clearDerived.nodes = s.nodes := rfl
@[simp] theorem State.clearDerived_symIn (s : State) : s.clearDerived.symIn = s.symIn := rfl
@[simp] theorem State.clearDerived_symOut (s : State) : s.clearDerived.symOut = s.symOut := rfl
@[simp] theorem State.clearDerived_bits (s : State) : s.clearDerived.bits = s.bits := rfl
@[simp] theorem State.clearDerived_agenda (s : State) : s.clearDerived.agenda = s.agenda := rfl
@[simp] theorem State.clearDerived_draws (s : State) : s.clearDerived.draws = s.draws := rfl
@[simp] theorem State.clearDerived_readData (s : State) : s.clearDerived.readData = s.readData := rfl

/-! ## dropStream -/

@[simp] theorem State.dropStream_params (s : State) : s.dropStream.params = s.params := rfl
@[simp] theorem State.dropStream_irqEn (s : State) : s.dropStream.irqEn = s.irqEn := rfl
@[simp] theorem State.dropStream_done (s : State) : s.dropStream.done = s.done := rfl
@[simp] theorem State.dropStream_overrun (s : State) : s.dropStream.overrun = s.overrun := rfl
@[simp] theorem State.dropStream_accessErr (s : State) : s.dropStream.accessErr = s.accessErr := rfl
@[simp] theorem State.dropStream_treeValid (s : State) : s.dropStream.treeValid = s.treeValid := rfl
@[simp] theorem State.dropStream_codesValid (s : State) : s.dropStream.codesValid = s.codesValid := rfl
@[simp] theorem State.dropStream_error (s : State) : s.dropStream.error = s.error := rfl
@[simp] theorem State.dropStream_errIdx (s : State) : s.dropStream.errIdx = s.errIdx := rfl
@[simp] theorem State.dropStream_cmdLast (s : State) : s.dropStream.cmdLast = s.cmdLast := rfl
@[simp] theorem State.dropStream_arg (s : State) : s.dropStream.arg = s.arg := rfl
@[simp] theorem State.dropStream_ilen (s : State) : s.dropStream.ilen = s.ilen := rfl
@[simp] theorem State.dropStream_blen (s : State) : s.dropStream.blen = 0#32 := rfl
@[simp] theorem State.dropStream_olen (s : State) : s.dropStream.olen = s.olen := rfl
@[simp] theorem State.dropStream_total (s : State) : s.dropStream.total = s.total := rfl
@[simp] theorem State.dropStream_ndistinct (s : State) : s.dropStream.ndistinct = s.ndistinct := rfl
@[simp] theorem State.dropStream_root (s : State) : s.dropStream.root = s.root := rfl
@[simp] theorem State.dropStream_nnodes (s : State) : s.dropStream.nnodes = s.nnodes := rfl
@[simp] theorem State.dropStream_maxlen (s : State) : s.dropStream.maxlen = s.maxlen := rfl
@[simp] theorem State.dropStream_pending (s : State) : s.dropStream.pending = s.pending := rfl
@[simp] theorem State.dropStream_freq (s : State) : s.dropStream.freq = s.freq := rfl
@[simp] theorem State.dropStream_codes (s : State) : s.dropStream.codes = s.codes := rfl
@[simp] theorem State.dropStream_nodes (s : State) : s.dropStream.nodes = s.nodes := rfl
@[simp] theorem State.dropStream_symIn (s : State) : s.dropStream.symIn = s.symIn := rfl
@[simp] theorem State.dropStream_symOut (s : State) : s.dropStream.symOut = s.symOut := rfl
@[simp] theorem State.dropStream_bits (s : State) : s.dropStream.bits = s.bits := rfl
@[simp] theorem State.dropStream_agenda (s : State) : s.dropStream.agenda = s.agenda := rfl
@[simp] theorem State.dropStream_draws (s : State) : s.dropStream.draws = s.draws := rfl
@[simp] theorem State.dropStream_readData (s : State) : s.dropStream.readData = s.readData := rfl

/-! ## voidStream -/

@[simp] theorem State.voidStream_params (s : State) : s.voidStream.params = s.params := rfl
@[simp] theorem State.voidStream_irqEn (s : State) : s.voidStream.irqEn = s.irqEn := rfl
@[simp] theorem State.voidStream_done (s : State) : s.voidStream.done = s.done := rfl
@[simp] theorem State.voidStream_overrun (s : State) : s.voidStream.overrun = s.overrun := rfl
@[simp] theorem State.voidStream_accessErr (s : State) : s.voidStream.accessErr = s.accessErr := rfl
@[simp] theorem State.voidStream_treeValid (s : State) : s.voidStream.treeValid = s.treeValid := rfl
@[simp] theorem State.voidStream_codesValid (s : State) : s.voidStream.codesValid = s.codesValid := rfl
@[simp] theorem State.voidStream_error (s : State) : s.voidStream.error = s.error := rfl
@[simp] theorem State.voidStream_errIdx (s : State) : s.voidStream.errIdx = s.errIdx := rfl
@[simp] theorem State.voidStream_cmdLast (s : State) : s.voidStream.cmdLast = s.cmdLast := rfl
@[simp] theorem State.voidStream_arg (s : State) : s.voidStream.arg = s.arg := rfl
@[simp] theorem State.voidStream_ilen (s : State) : s.voidStream.ilen = s.ilen := rfl
@[simp] theorem State.voidStream_blen (s : State) : s.voidStream.blen = 0#32 := rfl
@[simp] theorem State.voidStream_olen (s : State) : s.voidStream.olen = s.olen := rfl
@[simp] theorem State.voidStream_total (s : State) : s.voidStream.total = s.total := rfl
@[simp] theorem State.voidStream_ndistinct (s : State) : s.voidStream.ndistinct = s.ndistinct := rfl
@[simp] theorem State.voidStream_root (s : State) : s.voidStream.root = s.root := rfl
@[simp] theorem State.voidStream_nnodes (s : State) : s.voidStream.nnodes = s.nnodes := rfl
@[simp] theorem State.voidStream_maxlen (s : State) : s.voidStream.maxlen = s.maxlen := rfl
@[simp] theorem State.voidStream_pending (s : State) : s.voidStream.pending = s.pending := rfl
@[simp] theorem State.voidStream_freq (s : State) : s.voidStream.freq = s.freq := rfl
@[simp] theorem State.voidStream_codes (s : State) : s.voidStream.codes = s.codes := rfl
@[simp] theorem State.voidStream_nodes (s : State) : s.voidStream.nodes = s.nodes := rfl
@[simp] theorem State.voidStream_symIn (s : State) : s.voidStream.symIn = s.symIn := rfl
@[simp] theorem State.voidStream_symOut (s : State) : s.voidStream.symOut = s.symOut := rfl
@[simp] theorem State.voidStream_bits (s : State) : s.voidStream.bits = [] := rfl
@[simp] theorem State.voidStream_agenda (s : State) : s.voidStream.agenda = s.agenda := rfl
@[simp] theorem State.voidStream_draws (s : State) : s.voidStream.draws = s.draws := rfl
@[simp] theorem State.voidStream_readData (s : State) : s.voidStream.readData = s.readData := rfl

/-! ## dropOutput -/

@[simp] theorem State.dropOutput_params (s : State) : s.dropOutput.params = s.params := rfl
@[simp] theorem State.dropOutput_irqEn (s : State) : s.dropOutput.irqEn = s.irqEn := rfl
@[simp] theorem State.dropOutput_done (s : State) : s.dropOutput.done = s.done := rfl
@[simp] theorem State.dropOutput_overrun (s : State) : s.dropOutput.overrun = s.overrun := rfl
@[simp] theorem State.dropOutput_accessErr (s : State) : s.dropOutput.accessErr = s.accessErr := rfl
@[simp] theorem State.dropOutput_treeValid (s : State) : s.dropOutput.treeValid = s.treeValid := rfl
@[simp] theorem State.dropOutput_codesValid (s : State) : s.dropOutput.codesValid = s.codesValid := rfl
@[simp] theorem State.dropOutput_error (s : State) : s.dropOutput.error = s.error := rfl
@[simp] theorem State.dropOutput_errIdx (s : State) : s.dropOutput.errIdx = s.errIdx := rfl
@[simp] theorem State.dropOutput_cmdLast (s : State) : s.dropOutput.cmdLast = s.cmdLast := rfl
@[simp] theorem State.dropOutput_arg (s : State) : s.dropOutput.arg = s.arg := rfl
@[simp] theorem State.dropOutput_ilen (s : State) : s.dropOutput.ilen = s.ilen := rfl
@[simp] theorem State.dropOutput_blen (s : State) : s.dropOutput.blen = s.blen := rfl
@[simp] theorem State.dropOutput_olen (s : State) : s.dropOutput.olen = 0#32 := rfl
@[simp] theorem State.dropOutput_total (s : State) : s.dropOutput.total = s.total := rfl
@[simp] theorem State.dropOutput_ndistinct (s : State) : s.dropOutput.ndistinct = s.ndistinct := rfl
@[simp] theorem State.dropOutput_root (s : State) : s.dropOutput.root = s.root := rfl
@[simp] theorem State.dropOutput_nnodes (s : State) : s.dropOutput.nnodes = s.nnodes := rfl
@[simp] theorem State.dropOutput_maxlen (s : State) : s.dropOutput.maxlen = s.maxlen := rfl
@[simp] theorem State.dropOutput_pending (s : State) : s.dropOutput.pending = s.pending := rfl
@[simp] theorem State.dropOutput_freq (s : State) : s.dropOutput.freq = s.freq := rfl
@[simp] theorem State.dropOutput_codes (s : State) : s.dropOutput.codes = s.codes := rfl
@[simp] theorem State.dropOutput_nodes (s : State) : s.dropOutput.nodes = s.nodes := rfl
@[simp] theorem State.dropOutput_symIn (s : State) : s.dropOutput.symIn = s.symIn := rfl
@[simp] theorem State.dropOutput_symOut (s : State) : s.dropOutput.symOut = s.symOut := rfl
@[simp] theorem State.dropOutput_bits (s : State) : s.dropOutput.bits = s.bits := rfl
@[simp] theorem State.dropOutput_agenda (s : State) : s.dropOutput.agenda = s.agenda := rfl
@[simp] theorem State.dropOutput_draws (s : State) : s.dropOutput.draws = s.draws := rfl
@[simp] theorem State.dropOutput_readData (s : State) : s.dropOutput.readData = s.readData := rfl

/-! ## voidOutput -/

@[simp] theorem State.voidOutput_params (s : State) : s.voidOutput.params = s.params := rfl
@[simp] theorem State.voidOutput_irqEn (s : State) : s.voidOutput.irqEn = s.irqEn := rfl
@[simp] theorem State.voidOutput_done (s : State) : s.voidOutput.done = s.done := rfl
@[simp] theorem State.voidOutput_overrun (s : State) : s.voidOutput.overrun = s.overrun := rfl
@[simp] theorem State.voidOutput_accessErr (s : State) : s.voidOutput.accessErr = s.accessErr := rfl
@[simp] theorem State.voidOutput_treeValid (s : State) : s.voidOutput.treeValid = s.treeValid := rfl
@[simp] theorem State.voidOutput_codesValid (s : State) : s.voidOutput.codesValid = s.codesValid := rfl
@[simp] theorem State.voidOutput_error (s : State) : s.voidOutput.error = s.error := rfl
@[simp] theorem State.voidOutput_errIdx (s : State) : s.voidOutput.errIdx = s.errIdx := rfl
@[simp] theorem State.voidOutput_cmdLast (s : State) : s.voidOutput.cmdLast = s.cmdLast := rfl
@[simp] theorem State.voidOutput_arg (s : State) : s.voidOutput.arg = s.arg := rfl
@[simp] theorem State.voidOutput_ilen (s : State) : s.voidOutput.ilen = s.ilen := rfl
@[simp] theorem State.voidOutput_blen (s : State) : s.voidOutput.blen = s.blen := rfl
@[simp] theorem State.voidOutput_olen (s : State) : s.voidOutput.olen = 0#32 := rfl
@[simp] theorem State.voidOutput_total (s : State) : s.voidOutput.total = s.total := rfl
@[simp] theorem State.voidOutput_ndistinct (s : State) : s.voidOutput.ndistinct = s.ndistinct := rfl
@[simp] theorem State.voidOutput_root (s : State) : s.voidOutput.root = s.root := rfl
@[simp] theorem State.voidOutput_nnodes (s : State) : s.voidOutput.nnodes = s.nnodes := rfl
@[simp] theorem State.voidOutput_maxlen (s : State) : s.voidOutput.maxlen = s.maxlen := rfl
@[simp] theorem State.voidOutput_pending (s : State) : s.voidOutput.pending = s.pending := rfl
@[simp] theorem State.voidOutput_freq (s : State) : s.voidOutput.freq = s.freq := rfl
@[simp] theorem State.voidOutput_codes (s : State) : s.voidOutput.codes = s.codes := rfl
@[simp] theorem State.voidOutput_nodes (s : State) : s.voidOutput.nodes = s.nodes := rfl
@[simp] theorem State.voidOutput_symIn (s : State) : s.voidOutput.symIn = s.symIn := rfl
@[simp] theorem State.voidOutput_symOut (s : State) : s.voidOutput.symOut = [] := rfl
@[simp] theorem State.voidOutput_bits (s : State) : s.voidOutput.bits = s.bits := rfl
@[simp] theorem State.voidOutput_agenda (s : State) : s.voidOutput.agenda = s.agenda := rfl
@[simp] theorem State.voidOutput_draws (s : State) : s.voidOutput.draws = s.draws := rfl
@[simp] theorem State.voidOutput_readData (s : State) : s.voidOutput.readData = s.readData := rfl

/-! ## tick -/

@[simp] theorem State.tick_params (s : State) : s.tick.params = s.params := rfl
@[simp] theorem State.tick_irqEn (s : State) : s.tick.irqEn = s.irqEn := rfl
@[simp] theorem State.tick_done (s : State) : s.tick.done = s.done := rfl
@[simp] theorem State.tick_overrun (s : State) : s.tick.overrun = s.overrun := rfl
@[simp] theorem State.tick_accessErr (s : State) : s.tick.accessErr = s.accessErr := rfl
@[simp] theorem State.tick_treeValid (s : State) : s.tick.treeValid = s.treeValid := rfl
@[simp] theorem State.tick_codesValid (s : State) : s.tick.codesValid = s.codesValid := rfl
@[simp] theorem State.tick_error (s : State) : s.tick.error = s.error := rfl
@[simp] theorem State.tick_errIdx (s : State) : s.tick.errIdx = s.errIdx := rfl
@[simp] theorem State.tick_cmdLast (s : State) : s.tick.cmdLast = s.cmdLast := rfl
@[simp] theorem State.tick_arg (s : State) : s.tick.arg = s.arg := rfl
@[simp] theorem State.tick_ilen (s : State) : s.tick.ilen = s.ilen := rfl
@[simp] theorem State.tick_blen (s : State) : s.tick.blen = s.blen := rfl
@[simp] theorem State.tick_olen (s : State) : s.tick.olen = s.olen := rfl
@[simp] theorem State.tick_total (s : State) : s.tick.total = s.total := rfl
@[simp] theorem State.tick_ndistinct (s : State) : s.tick.ndistinct = s.ndistinct := rfl
@[simp] theorem State.tick_root (s : State) : s.tick.root = s.root := rfl
@[simp] theorem State.tick_nnodes (s : State) : s.tick.nnodes = s.nnodes := rfl
@[simp] theorem State.tick_maxlen (s : State) : s.tick.maxlen = s.maxlen := rfl
@[simp] theorem State.tick_pending (s : State) : s.tick.pending = s.pending := rfl
@[simp] theorem State.tick_freq (s : State) : s.tick.freq = s.freq := rfl
@[simp] theorem State.tick_codes (s : State) : s.tick.codes = s.codes := rfl
@[simp] theorem State.tick_nodes (s : State) : s.tick.nodes = s.nodes := rfl
@[simp] theorem State.tick_symIn (s : State) : s.tick.symIn = s.symIn := rfl
@[simp] theorem State.tick_symOut (s : State) : s.tick.symOut = s.symOut := rfl
@[simp] theorem State.tick_bits (s : State) : s.tick.bits = s.bits := rfl
@[simp] theorem State.tick_agenda (s : State) : s.tick.agenda = s.agenda := rfl
@[simp] theorem State.tick_draws (s : State) : s.tick.draws = s.draws + 1 := rfl
@[simp] theorem State.tick_readData (s : State) : s.tick.readData = s.readData := rfl

/-! ## withAgenda -/

@[simp] theorem State.withAgenda_params (s : State) (r : List Turn) : (s.withAgenda r).params = s.params := rfl
@[simp] theorem State.withAgenda_irqEn (s : State) (r : List Turn) : (s.withAgenda r).irqEn = s.irqEn := rfl
@[simp] theorem State.withAgenda_done (s : State) (r : List Turn) : (s.withAgenda r).done = s.done := rfl
@[simp] theorem State.withAgenda_overrun (s : State) (r : List Turn) : (s.withAgenda r).overrun = s.overrun := rfl
@[simp] theorem State.withAgenda_accessErr (s : State) (r : List Turn) : (s.withAgenda r).accessErr = s.accessErr := rfl
@[simp] theorem State.withAgenda_treeValid (s : State) (r : List Turn) : (s.withAgenda r).treeValid = s.treeValid := rfl
@[simp] theorem State.withAgenda_codesValid (s : State) (r : List Turn) : (s.withAgenda r).codesValid = s.codesValid := rfl
@[simp] theorem State.withAgenda_error (s : State) (r : List Turn) : (s.withAgenda r).error = s.error := rfl
@[simp] theorem State.withAgenda_errIdx (s : State) (r : List Turn) : (s.withAgenda r).errIdx = s.errIdx := rfl
@[simp] theorem State.withAgenda_cmdLast (s : State) (r : List Turn) : (s.withAgenda r).cmdLast = s.cmdLast := rfl
@[simp] theorem State.withAgenda_arg (s : State) (r : List Turn) : (s.withAgenda r).arg = s.arg := rfl
@[simp] theorem State.withAgenda_ilen (s : State) (r : List Turn) : (s.withAgenda r).ilen = s.ilen := rfl
@[simp] theorem State.withAgenda_blen (s : State) (r : List Turn) : (s.withAgenda r).blen = s.blen := rfl
@[simp] theorem State.withAgenda_olen (s : State) (r : List Turn) : (s.withAgenda r).olen = s.olen := rfl
@[simp] theorem State.withAgenda_total (s : State) (r : List Turn) : (s.withAgenda r).total = s.total := rfl
@[simp] theorem State.withAgenda_ndistinct (s : State) (r : List Turn) : (s.withAgenda r).ndistinct = s.ndistinct := rfl
@[simp] theorem State.withAgenda_root (s : State) (r : List Turn) : (s.withAgenda r).root = s.root := rfl
@[simp] theorem State.withAgenda_nnodes (s : State) (r : List Turn) : (s.withAgenda r).nnodes = s.nnodes := rfl
@[simp] theorem State.withAgenda_maxlen (s : State) (r : List Turn) : (s.withAgenda r).maxlen = s.maxlen := rfl
@[simp] theorem State.withAgenda_pending (s : State) (r : List Turn) : (s.withAgenda r).pending = s.pending := rfl
@[simp] theorem State.withAgenda_freq (s : State) (r : List Turn) : (s.withAgenda r).freq = s.freq := rfl
@[simp] theorem State.withAgenda_codes (s : State) (r : List Turn) : (s.withAgenda r).codes = s.codes := rfl
@[simp] theorem State.withAgenda_nodes (s : State) (r : List Turn) : (s.withAgenda r).nodes = s.nodes := rfl
@[simp] theorem State.withAgenda_symIn (s : State) (r : List Turn) : (s.withAgenda r).symIn = s.symIn := rfl
@[simp] theorem State.withAgenda_symOut (s : State) (r : List Turn) : (s.withAgenda r).symOut = s.symOut := rfl
@[simp] theorem State.withAgenda_bits (s : State) (r : List Turn) : (s.withAgenda r).bits = s.bits := rfl
@[simp] theorem State.withAgenda_agenda (s : State) (r : List Turn) : (s.withAgenda r).agenda = r := rfl
@[simp] theorem State.withAgenda_draws (s : State) (r : List Turn) : (s.withAgenda r).draws = s.draws := rfl
@[simp] theorem State.withAgenda_readData (s : State) (r : List Turn) : (s.withAgenda r).readData = s.readData := rfl

/-! ## clearFlags -/

@[simp] theorem State.clearFlags_params (s : State) (v : Word) : (s.clearFlags v).params = s.params := rfl
@[simp] theorem State.clearFlags_irqEn (s : State) (v : Word) : (s.clearFlags v).irqEn = s.irqEn := rfl
@[simp] theorem State.clearFlags_done (s : State) (v : Word) : (s.clearFlags v).done = (s.done && !v.getLsbD 1) := rfl
@[simp] theorem State.clearFlags_overrun (s : State) (v : Word) : (s.clearFlags v).overrun = (s.overrun && !v.getLsbD 3) := rfl
@[simp] theorem State.clearFlags_accessErr (s : State) (v : Word) : (s.clearFlags v).accessErr = (s.accessErr && !v.getLsbD 4) := rfl
@[simp] theorem State.clearFlags_treeValid (s : State) (v : Word) : (s.clearFlags v).treeValid = s.treeValid := rfl
@[simp] theorem State.clearFlags_codesValid (s : State) (v : Word) : (s.clearFlags v).codesValid = s.codesValid := rfl
@[simp] theorem State.clearFlags_error (s : State) (v : Word) : (s.clearFlags v).error = s.error := rfl
@[simp] theorem State.clearFlags_errIdx (s : State) (v : Word) : (s.clearFlags v).errIdx = s.errIdx := rfl
@[simp] theorem State.clearFlags_cmdLast (s : State) (v : Word) : (s.clearFlags v).cmdLast = s.cmdLast := rfl
@[simp] theorem State.clearFlags_arg (s : State) (v : Word) : (s.clearFlags v).arg = s.arg := rfl
@[simp] theorem State.clearFlags_ilen (s : State) (v : Word) : (s.clearFlags v).ilen = s.ilen := rfl
@[simp] theorem State.clearFlags_blen (s : State) (v : Word) : (s.clearFlags v).blen = s.blen := rfl
@[simp] theorem State.clearFlags_olen (s : State) (v : Word) : (s.clearFlags v).olen = s.olen := rfl
@[simp] theorem State.clearFlags_total (s : State) (v : Word) : (s.clearFlags v).total = s.total := rfl
@[simp] theorem State.clearFlags_ndistinct (s : State) (v : Word) : (s.clearFlags v).ndistinct = s.ndistinct := rfl
@[simp] theorem State.clearFlags_root (s : State) (v : Word) : (s.clearFlags v).root = s.root := rfl
@[simp] theorem State.clearFlags_nnodes (s : State) (v : Word) : (s.clearFlags v).nnodes = s.nnodes := rfl
@[simp] theorem State.clearFlags_maxlen (s : State) (v : Word) : (s.clearFlags v).maxlen = s.maxlen := rfl
@[simp] theorem State.clearFlags_pending (s : State) (v : Word) : (s.clearFlags v).pending = s.pending := rfl
@[simp] theorem State.clearFlags_freq (s : State) (v : Word) : (s.clearFlags v).freq = s.freq := rfl
@[simp] theorem State.clearFlags_codes (s : State) (v : Word) : (s.clearFlags v).codes = s.codes := rfl
@[simp] theorem State.clearFlags_nodes (s : State) (v : Word) : (s.clearFlags v).nodes = s.nodes := rfl
@[simp] theorem State.clearFlags_symIn (s : State) (v : Word) : (s.clearFlags v).symIn = s.symIn := rfl
@[simp] theorem State.clearFlags_symOut (s : State) (v : Word) : (s.clearFlags v).symOut = s.symOut := rfl
@[simp] theorem State.clearFlags_bits (s : State) (v : Word) : (s.clearFlags v).bits = s.bits := rfl
@[simp] theorem State.clearFlags_agenda (s : State) (v : Word) : (s.clearFlags v).agenda = s.agenda := rfl
@[simp] theorem State.clearFlags_draws (s : State) (v : Word) : (s.clearFlags v).draws = s.draws := rfl
@[simp] theorem State.clearFlags_readData (s : State) (v : Word) : (s.clearFlags v).readData = s.readData := rfl

/-! ## hardReset -/

@[simp] theorem State.hardReset_params (s : State) : s.hardReset.params = s.params := rfl
@[simp] theorem State.hardReset_irqEn (s : State) : s.hardReset.irqEn = false := rfl
@[simp] theorem State.hardReset_done (s : State) : s.hardReset.done = false := rfl
@[simp] theorem State.hardReset_overrun (s : State) : s.hardReset.overrun = false := rfl
@[simp] theorem State.hardReset_accessErr (s : State) : s.hardReset.accessErr = false := rfl
@[simp] theorem State.hardReset_treeValid (s : State) : s.hardReset.treeValid = false := rfl
@[simp] theorem State.hardReset_codesValid (s : State) : s.hardReset.codesValid = false := rfl
@[simp] theorem State.hardReset_error (s : State) : s.hardReset.error = none := rfl
@[simp] theorem State.hardReset_errIdx (s : State) : s.hardReset.errIdx = 0#32 := rfl
@[simp] theorem State.hardReset_cmdLast (s : State) : s.hardReset.cmdLast = 0#32 := rfl
@[simp] theorem State.hardReset_arg (s : State) : s.hardReset.arg = 0#32 := rfl
@[simp] theorem State.hardReset_ilen (s : State) : s.hardReset.ilen = 0#32 := rfl
@[simp] theorem State.hardReset_blen (s : State) : s.hardReset.blen = 0#32 := rfl
@[simp] theorem State.hardReset_olen (s : State) : s.hardReset.olen = 0#32 := rfl
@[simp] theorem State.hardReset_total (s : State) : s.hardReset.total = 0#32 := rfl
@[simp] theorem State.hardReset_ndistinct (s : State) : s.hardReset.ndistinct = 0#9 := rfl
@[simp] theorem State.hardReset_root (s : State) : s.hardReset.root = none := rfl
@[simp] theorem State.hardReset_nnodes (s : State) : s.hardReset.nnodes = 0#10 := rfl
@[simp] theorem State.hardReset_maxlen (s : State) : s.hardReset.maxlen = 0#9 := rfl
@[simp] theorem State.hardReset_pending (s : State) : s.hardReset.pending = none := rfl
@[simp] theorem State.hardReset_freq (s : State) : s.hardReset.freq = Vector.replicate 256 0#32 := rfl
@[simp] theorem State.hardReset_codes (s : State) : s.hardReset.codes = none := rfl
@[simp] theorem State.hardReset_nodes (s : State) : s.hardReset.nodes = [] := rfl
@[simp] theorem State.hardReset_symIn (s : State) : s.hardReset.symIn = [] := rfl
@[simp] theorem State.hardReset_symOut (s : State) : s.hardReset.symOut = [] := rfl
@[simp] theorem State.hardReset_bits (s : State) : s.hardReset.bits = [] := rfl
@[simp] theorem State.hardReset_agenda (s : State) : s.hardReset.agenda = s.agenda := rfl
@[simp] theorem State.hardReset_draws (s : State) : s.hardReset.draws = s.draws := rfl
@[simp] theorem State.hardReset_readData (s : State) : s.hardReset.readData = s.readData := rfl

/-! ## protectedWrite and busy -/

@[simp] theorem State.busy_of_none (s : State) (h : s.pending = none) : s.busy = false := by simp [State.busy, h]

@[simp] theorem State.busy_of_some (s : State) (w : Word) (h : s.pending = some w) : s.busy = true := by
  simp [State.busy, h]

theorem State.busy_iff (s : State) : s.busy = true ↔ ∃ w, s.pending = some w := by
  simp [State.busy, Option.isSome_iff_exists]

theorem State.err_iff (s : State) : s.err = true ↔ s.error ≠ none := by
  rcases h : s.error with _ | k
  · simp [State.err, State.errCode, h]
  · cases k <;> simp [State.err, State.errCode, h, ErrorKind.code]

end Sys2Proof.Machine
end

