-- ==== Sys2Proof/Laws/Ops.lean ====
section
/-! SUPPORT. The alphabet, arrays indexed by symbol, body results and bit packing. -/

namespace Sys2Proof.Machine

/-! ## The alphabet -/

@[simp] theorem symbols_length : symbols.length = 256 := by simp [symbols]

theorem mem_symbols (y : Symbol) : y ∈ symbols := by
  simp only [symbols, List.mem_map, List.mem_range]
  exact ⟨y.toNat, y.isLt, by simp⟩

theorem symbols_get (i : Nat) (h : i < symbols.length) : symbols[i] = BitVec.ofNat 8 i := by simp [symbols]

theorem symbols_nodup : symbols.Nodup := by
  refine List.Nodup.map_on ?_ List.nodup_range
  intro a ha b hb h
  rw [List.mem_range] at ha hb
  have := congrArg BitVec.toNat h
  simpa [Nat.mod_eq_of_lt ha, Nat.mod_eq_of_lt hb] using this

/-! ## Arrays indexed by symbol -/

@[simp] theorem entry_tabulate {α : Type} (f : Symbol → α) (y : Symbol) : entry (tabulate f) y = f y := by
  simp [entry, tabulate, symbols]

theorem entry_set {α : Type} (t : Vector α 256) (y z : Symbol) (v : α) :
    entry (t.set y.toNat v y.isLt) z = if z = y then v else entry t z := by
  unfold entry
  rw [Vector.getElem_set]
  by_cases h : z = y
  · subst h; simp
  · rw [if_neg h, if_neg (fun e => h (BitVec.eq_of_toNat_eq e.symm))]

@[simp] theorem entry_replicate {α : Type} (v : α) (y : Symbol) : entry (Vector.replicate 256 v) y = v := by
  simp [entry]

/-- Two tables with the same entries are one table. -/
theorem table_ext {α : Type} {t u : Vector α 256} (h : ∀ y, entry t y = entry u y) : t = u := by
  ext i hi
  have := h (BitVec.ofNat 8 i)
  simpa [entry, Nat.mod_eq_of_lt hi] using this

/-! ## Bodies -/

@[simp] theorem Body.andThen_ok (s : State) (f : State → Body) : (Body.ok s).andThen f = f s := rfl

@[simp] theorem Body.andThen_raised (s : State) (k : ErrorKind) (x : Word) (f : State → Body) :
    (Body.raised s k x).andThen f = .raised s k x := rfl

@[simp] theorem Body.cleanup_ok (s : State) (f : State → State) : (Body.ok s).cleanup f = .ok s := rfl

@[simp] theorem Body.cleanup_raised (s : State) (k : ErrorKind) (x : Word) (f : State → State) :
    (Body.raised s k x).cleanup f = .raised (f s) k x := rfl

@[simp] theorem Body.finish_ok (s : State) : (Body.ok s).finish = .next s.complete := rfl

@[simp] theorem Body.finish_raised (s : State) (k : ErrorKind) (x : Word) :
    (Body.raised s k x).finish = .next (s.raise k x) := rfl

/-- Every body ends in a completion (45_control.md R202). -/
theorem Body.finish_next (b : Body) :
    ∃ s : State, b.finish = .next s.complete ∨ ∃ k x, b.finish = .next (s.raise k x) := by
  cases b with
  | ok s => exact ⟨s, .inl rfl⟩
  | raised s k x => exact ⟨s, .inr ⟨k, x, rfl⟩⟩

/-- Two bodies in sequence end without error exactly when both do. -/
theorem Body.andThen_eq_ok {b : Body} {f : State → Body} {t : State} :
    b.andThen f = .ok t ↔ ∃ s, b = .ok s ∧ f s = .ok t := by
  cases b <;> simp [Body.andThen]

/-! ## Bit packing (00_scope.md R11) -/

/-- Bit `31 − b` of word `w` of a bit sequence is its element `32·w + b`. -/
theorem packWord_msb (c : Code) (w b : Nat) (h : b < 32) : (packWord c w).getMsbD b = c.getD (32 * w + b) false := by
  unfold packWord
  rw [BitVec.getMsbD_cast, BitVec.getMsbD_ofBoolListBE]
  simp [List.getD_eq_getElem?_getD, h]

@[simp] theorem packWords_length (c : Code) : (packWords c).length = (c.length + 31) / 32 := by simp [packWords]

theorem packWords_get (c : Code) (w : Nat) (h : w < (c.length + 31) / 32) : (packWords c)[w]? = some (packWord c w) := by
  simp [packWords, h]

/-- Element `j` of the sequence, read back from the word that holds it. -/
theorem wordBit_packWord (c : Code) (j : Nat) : wordBit (packWord c (j / 32)) j = c.getD j false := by
  rw [wordBit, packWord_msb c _ _ (Nat.mod_lt _ (by decide)), show 32 * (j / 32) + j % 32 = j by omega]

end Sys2Proof.Machine
end

