-- ==== Sys2Proof/Laws/Bodies.lean ====
section
/-! SUPPORT. What the body of each command can answer, said once; the provers cite these instead of unfolding a body. -/

namespace Sys2Proof.Machine

/-- FREQ_SET (40_frequency.md R100). -/
theorem freqSetBody_cases (y : Symbol) (s : State) :
    (s.arg = 0#32 ∧ freqSetBody y s = .raised s .invalidFrequencyTable (zext32 y)) ∨
    (s.arg ≠ 0#32 ∧ 2 ^ 32 - 1 < s.totalWith y s.arg ∧ freqSetBody y s = .raised s .countOverflow (zext32 y)) ∨
    (s.arg ≠ 0#32 ∧ s.totalWith y s.arg ≤ 2 ^ 32 - 1 ∧
      freqSetBody y s =
        .ok (s.setFreq (s.freq.set y.toNat s.arg y.isLt) (BitVec.ofNat 32 (s.totalWith y s.arg))
          (if entry s.freq y = 0#32 then s.ndistinct + 1#9 else s.ndistinct))) := by
  unfold freqSetBody
  split
  · exact .inl ⟨‹_›, rfl⟩
  · split
    · exact .inr (.inl ⟨‹_›, ‹_›, rfl⟩)
    · exact .inr (.inr ⟨‹_›, Nat.not_lt.1 ‹_›, rfl⟩)

/-- FREQ_COUNT (R102). -/
theorem freqCountBody_cases (s : State) :
    (s.params.symCap < s.ilen.toNat ∧ freqCountBody s = .raised s .capacityExceeded s.ilen) ∨
    (s.ilen.toNat ≤ s.params.symCap ∧
      freqCountBody s =
        .ok (s.setFreq (countTable s.inputSymbols) s.ilen (BitVec.ofNat 9 (countDistinct s.inputSymbols)))) := by
  unfold freqCountBody
  split
  · exact .inl ⟨‹_›, rfl⟩
  · exact .inr ⟨Nat.not_lt.1 ‹_›, rfl⟩

/-- GEN (42_code_table.md R140). -/
theorem genBody_cases (s : State) :
    (s.treeValid = false ∧ genBody s = .raised s .notReady 0#32) ∨
    (s.treeValid = true ∧
      ∃ table, table = codeTableOf (codeAssignments s.nodeAt s.root) ∧
        genBody s = .ok (s.setCodes table (BitVec.ofNat 9 (longestCode table)))) := by
  unfold genBody
  split
  · exact .inr ⟨‹_›, _, rfl, rfl⟩
  · exact .inl ⟨Bool.eq_false_iff.2 ‹_›, rfl⟩

/-- MAP (43_encoder.md R160). -/
theorem mapBody_cases (s : State) :
    (s.codesValid = false ∧ mapBody s = .raised s.dropStream .notReady 0#32) ∨
    (s.codesValid = true ∧ s.params.symCap < s.ilen.toNat ∧
      mapBody s = .raised s.dropStream .capacityExceeded s.ilen) ∨
    (s.codesValid = true ∧ s.ilen.toNat ≤ s.params.symCap ∧
      ((∃ c, mapSymbols s.codeAt s.params.bitCap s.inputSymbols 0 0 = .ok c ∧
          mapBody s = .ok (s.setStream (packWords c) (BitVec.ofNat 32 c.length))) ∨
        ∃ e, mapSymbols s.codeAt s.params.bitCap s.inputSymbols 0 0 = .error e ∧
          mapBody s = .raised s.voidStream e.1 (BitVec.ofNat 32 e.2))) := by
  unfold mapBody
  split
  · split
    · exact .inr (.inl ⟨‹_›, ‹_›, rfl⟩)
    · refine .inr (.inr ⟨‹_›, Nat.not_lt.1 ‹_›, ?_⟩)
      split
      · rename_i c h
        exact .inl ⟨c, h, rfl⟩
      · rename_i e h
        exact .inr ⟨e, h, rfl⟩
  · exact .inl ⟨Bool.eq_false_iff.2 ‹_›, rfl⟩

/-- PARSE (44_decoder.md R180): its checks in order. -/
theorem parseBody_cases (s : State) :
    (s.codesValid = false ∧ parseBody s = .raised s.dropOutput .notReady 0#32) ∨
    (s.codesValid = true ∧ s.params.bitCap < s.blen.toNat ∧
      parseBody s = .raised s.dropOutput .capacityExceeded s.blen) ∨
    (s.codesValid = true ∧ s.blen.toNat ≤ s.params.bitCap ∧
      ((s.ndistinct = 0#9 ∧ s.blen = 0#32 ∧ parseBody s = .ok s.dropOutput) ∨
      (s.ndistinct = 0#9 ∧ s.blen ≠ 0#32 ∧ parseBody s = .raised s.dropOutput .invalidFrequencyTable s.blen) ∨
      (s.ndistinct ≠ 0#9 ∧ s.params.symCap < s.total.toNat ∧
        parseBody s = .raised s.dropOutput .capacityExceeded s.total) ∨
      (s.ndistinct = 1#9 ∧ s.total.toNat ≤ s.params.symCap ∧
        parseBody s = .ok (s.setOutput (List.replicate s.total.toNat s.soleSymbol))) ∨
      (s.ndistinct ≠ 0#9 ∧ s.ndistinct ≠ 1#9 ∧ s.total.toNat ≤ s.params.symCap ∧
        ((∃ out, scanBits s.codeAt s.total.toNat s.streamBits 0 0 [] [] = .ok out ∧
            parseBody s = .ok (s.setOutput out)) ∨
          ∃ idx, scanBits s.codeAt s.total.toNat s.streamBits 0 0 [] [] = .error idx ∧
            parseBody s = .raised s.voidOutput .malformedStream (BitVec.ofNat 32 idx))))) := by
  unfold parseBody
  split
  · split
    · exact .inr (.inl ⟨‹_›, ‹_›, rfl⟩)
    · refine .inr (.inr ⟨‹_›, Nat.not_lt.1 ‹_›, ?_⟩)
      split
      · split
        · exact .inl ⟨‹_›, ‹_›, rfl⟩
        · exact .inr (.inl ⟨‹_›, ‹_›, rfl⟩)
      · split
        · exact .inr (.inr (.inl ⟨‹_›, ‹_›, rfl⟩))
        · split
          · exact .inr (.inr (.inr (.inl ⟨‹_›, Nat.not_lt.1 ‹_›, rfl⟩)))
          · refine .inr (.inr (.inr (.inr ⟨‹_›, ‹_›, Nat.not_lt.1 ‹_›, ?_⟩)))
            split
            · rename_i out h
              exact .inl ⟨out, h, rfl⟩
            · rename_i idx h
              exact .inr ⟨idx, h, rfl⟩
  · exact .inl ⟨Bool.eq_false_iff.2 ‹_›, rfl⟩

/-- Every command is the completion of its body (45_control.md R202). -/
theorem exec_eq_finish (i : Instr) (s : State) : ∃ b : Body, exec i s = b.finish := by
  cases i with
  | nop => exact ⟨.ok s, rfl⟩
  | clear => exact ⟨.ok s.clearDerived, rfl⟩
  | freqSet y => exact ⟨freqSetBody y s, rfl⟩
  | freqCount => exact ⟨freqCountBody s, rfl⟩
  | build => exact ⟨buildBody s, rfl⟩
  | gen => exact ⟨genBody s, rfl⟩
  | map => exact ⟨mapBody s, rfl⟩
  | parse => exact ⟨parseBody s, rfl⟩
  | encode => exact ⟨encodeBody s, rfl⟩
  | decode => exact ⟨decodeBody s, rfl⟩

/-- The loop of MAP (R160): without error it leaves the concatenation of the codes, and every symbol has one. -/
theorem mapSymbols_ok {code : Symbol → Code} {cap : Nat} {syms : List Symbol} {i pos : Nat} {c : Code}
    (h : mapSymbols code cap syms i pos = .ok c) :
    c = syms.flatMap code ∧ (∀ y ∈ syms, code y ≠ []) ∧ (syms = [] ∨ pos + c.length ≤ cap) := by
  induction syms generalizing i pos c with
  | nil => simp_all [mapSymbols]
  | cons y rest ih =>
    rw [mapSymbols] at h
    split at h
    · cases h
    · split at h
      · cases h
      · split at h
        · rename_i h1 h2 _ c' hc
          obtain ⟨rfl, hne, hfit⟩ := ih hc
          cases h
          refine ⟨by simp, ?_, .inr ?_⟩
          · intro z hz
            rcases List.mem_cons.1 hz with rfl | hz
            · exact fun e => h1 (by simp [e])
            · exact hne z hz
          · rcases hfit with rfl | hfit
            · simpa using h2
            · rw [List.length_append]; omega
        · cases h

end Sys2Proof.Machine
end

