-- ==== Sys2Proof/Laws/Encoding.lean ====
section
/-! SUPPORT. The fields of a command word and what decoding one answers (30_encoding.md R80 to R84). -/

namespace Sys2Proof

theorem opField_toNat (w : Word) : (opField w).toNat = w.toNat / 2 ^ 24 := by
  simp only [opField, BitVec.extractLsb'_toNat, Nat.shiftRight_eq_div_pow]
  have := w.isLt
  omega

theorem rsvField_toNat (w : Word) : (rsvField w).toNat = w.toNat / 2 ^ 8 % 2 ^ 16 := by
  simp [rsvField, BitVec.extractLsb'_toNat, Nat.shiftRight_eq_div_pow]

theorem symField_toNat (w : Word) : (symField w).toNat = w.toNat % 2 ^ 8 := by
  simp [symField, BitVec.extractLsb'_toNat]

/-- A word is its three fields. -/
theorem word_eq_of_fields {v w : Word} (ho : opField v = opField w) (hr : rsvField v = rsvField w)
    (hs : symField v = symField w) : v = w := by
  apply BitVec.eq_of_toNat_eq
  have h1 := congrArg BitVec.toNat ho
  have h2 := congrArg BitVec.toNat hr
  have h3 := congrArg BitVec.toNat hs
  rw [opField_toNat, opField_toNat] at h1
  rw [rsvField_toNat, rsvField_toNat] at h2
  rw [symField_toNat, symField_toNat] at h3
  omega

/-- The opcode map answers for the opcodes up to 0x09 and no other. -/
theorem opcodeInstr_eq_none_iff (op : BitVec 8) (y : Symbol) : opcodeInstr op y = none ↔ 9 < op.toNat := by
  unfold opcodeInstr
  constructor
  · intro h
    by_contra hc
    have : op.toNat = 0 ∨ op.toNat = 1 ∨ op.toNat = 2 ∨ op.toNat = 3 ∨ op.toNat = 4 ∨ op.toNat = 5 ∨ op.toNat = 6 ∨
      op.toNat = 7 ∨ op.toNat = 8 ∨ op.toNat = 9 := by omega
    rcases this with e | e | e | e | e | e | e | e | e | e <;> rw [e] at h <;> simp at h
  · intro h
    split <;> simp_all

/-- What decoding answers, said once. -/
theorem decode_eq_ok_iff (w : Word) (i : Instr) :
    decode w = .ok i ↔
      opcodeInstr (opField w) (symField w) = some i ∧ rsvField w = 0#16 ∧
        (opField w = 0x02#8 ∨ symField w = 0#8) := by
  unfold decode
  split
  · simp_all
  · split
    · simp_all
    · split
      · simp_all
      · rename_i h1 h2 h3
        rw [h1]
        simp only [Except.ok.injEq, Option.some.injEq]
        have : opField w = 0x02#8 ∨ symField w = 0#8 := by tauto
        simp_all

end Sys2Proof
end

