-- ==== Sys2Proof/Laws/PerInstr.lean ====
section
/-! SUPPORT. One lemma per command: its word of 30_encoding.md R82 is a legal command word (R84) and has the format C
of R80. -/

namespace Sys2Proof.Laws.EncodedWordLegal

/-- The word of `i` passes the three checks of R83, and its reserved field is 0. -/
def Statement (i : Instr) : Prop := Word.wf (encode i) = true ∧ rsvField (encode i) = 0#16

theorem nop : Statement .nop := by unfold Statement; decide

theorem clear : Statement .clear := by unfold Statement; decide

theorem freqSet (sym : Symbol) : Statement (.freqSet sym) := by
  unfold Statement
  revert sym
  decide

theorem freqCount : Statement .freqCount := by unfold Statement; decide

theorem build : Statement .build := by unfold Statement; decide

theorem gen : Statement .gen := by unfold Statement; decide

theorem map : Statement .map := by unfold Statement; decide

theorem parse : Statement .parse := by unfold Statement; decide

theorem encode : Statement .encode := by unfold Statement; decide

theorem decode : Statement .decode := by unfold Statement; decide

end Sys2Proof.Laws.EncodedWordLegal
end

