-- ==== Sys2Proof/Laws/Tree.lean ====
section
/-! SUPPORT. The priority queue and the merge loop of BUILD (41_tree_builder.md R120 to R122), and the walk of GEN
(42_code_table.md R140). -/

namespace Sys2Proof.Machine

/-! ## The queue -/

/-- The queue's order is the pair (WEIGHT, index) (R122). -/
theorem queueLess_iff (a b : Word × Nat) :
    queueLess a b = true ↔ a.1.toNat < b.1.toNat ∨ (a.1.toNat = b.1.toNat ∧ a.2 < b.2) := by
  simp [queueLess, BitVec.lt_def, BitVec.toNat_inj]

theorem takeLeast_eq_none_iff (q : List (Word × Nat)) : takeLeast q = none ↔ q = [] := by
  cases q with
  | nil => simp [takeLeast]
  | cons e q =>
    simp only [takeLeast]
    split
    · simp
    · split <;> simp

/-- Taking the least element leaves the others. -/
theorem takeLeast_perm {q r : List (Word × Nat)} {m : Word × Nat} (h : takeLeast q = some (m, r)) :
    q.Perm (m :: r) := by
  induction q generalizing m r with
  | nil => simp [takeLeast] at h
  | cons e q ih =>
    simp only [takeLeast] at h
    split at h
    · rename_i hq
      rw [takeLeast_eq_none_iff] at hq
      simp_all
    · rename_i m' r' hq
      split at h
      · cases h
        exact (ih hq).cons e
      · cases h
        exact ((ih hq).cons e).trans (List.Perm.swap _ _ _)

/-- No element left is before the one taken (R122). -/
theorem takeLeast_least {q r : List (Word × Nat)} {m : Word × Nat} (h : takeLeast q = some (m, r)) :
    ∀ e ∈ r, queueLess e m = false := by
  induction q generalizing m r with
  | nil => simp [takeLeast] at h
  | cons e q ih =>
    simp only [takeLeast] at h
    split at h
    · cases h; simp
    · rename_i m' r' hq
      split at h
      · rename_i hlt
        cases h
        intro x hx
        rw [Bool.eq_false_iff, Ne, queueLess_iff]
        rw [queueLess_iff] at hlt
        rcases List.mem_cons.1 hx with rfl | hx
        · omega
        · have := ih hq x hx
          rw [Bool.eq_false_iff, Ne, queueLess_iff] at this
          omega
      · rename_i hlt
        cases h
        intro x hx
        rcases List.mem_cons.1 hx with rfl | hx
        · simpa using hlt
        · exact ih hq x hx

theorem takeLeast_length {q r : List (Word × Nat)} {m : Word × Nat} (h : takeLeast q = some (m, r)) :
    q.length = r.length + 1 := by simpa using (takeLeast_perm h).length_eq

/-! ## The merge loop -/

/-- The loop runs until one node is left: one new node per round (R121). -/
theorem mergeRounds_lengths (n : Nat) (arena : List Node) (q : List (Word × Nat)) (hq : q ≠ [])
    (hn : q.length ≤ n + 1) :
    (mergeRounds n arena q).1.length = arena.length + (q.length - 1) ∧ (mergeRounds n arena q).2.length = 1 := by
  induction n generalizing arena q with
  | zero =>
    have := List.length_pos_iff.2 hq
    simp only [mergeRounds]
    omega
  | succ n ih =>
    simp only [mergeRounds]
    split
    · rename_i h
      exact absurd ((takeLeast_eq_none_iff q).1 h) hq
    · rename_i a q₁ h₁
      have l₁ := takeLeast_length h₁
      split
      · rename_i h₂
        rw [(takeLeast_eq_none_iff q₁).1 h₂] at l₁
        simp_all
      · rename_i b q₂ h₂
        have l₂ := takeLeast_length h₂
        have := ih (arena ++ [internalNode a b]) (((internalNode a b).weight, arena.length) :: q₂) (by simp)
          (by simp; omega)
        simp only [List.length_append, List.length_cons, List.length_nil] at this
        omega

/-- The loop only appends to the arena. -/
theorem mergeRounds_prefix (n : Nat) (arena : List Node) (q : List (Word × Nat)) :
    arena <+: (mergeRounds n arena q).1 := by
  induction n generalizing arena q with
  | zero => exact List.prefix_refl _
  | succ n ih =>
    simp only [mergeRounds]
    split
    · exact List.prefix_refl _
    · split
      · exact List.prefix_refl _
      · exact (List.prefix_append _ _).trans (ih _ _)

/-- NNODES is 2k − 1 for k ≥ 1 leaves, and 0 for none (R121). -/
theorem treeArena_length (freq : Vector Word 256) :
    (treeArena freq).length = 2 * (leavesOf freq).length - 1 := by
  unfold treeArena buildTree
  rcases h : leavesOf freq with _ | ⟨x, xs⟩
  · rfl
  · have := (mergeRounds_lengths (x :: xs).length (x :: xs) (leafQueue (x :: xs)) (by simp [leafQueue])
      (by simp [leafQueue])).1
    simp only [leafQueue, List.length_map, List.length_zipIdx, List.length_cons] at this ⊢
    omega

theorem leavesOf_length_le (freq : Vector Word 256) : (leavesOf freq).length ≤ 256 := by
  simpa [leavesOf] using List.length_filter_le (fun y => entry freq y != 0#32) symbols

/-! ## The walk -/

/-- Every path the walk answers extends the path it starts from. -/
theorem walk_prefix {node : NodeIdx → Node} {d : Nat} {n : NodeIdx} {p : Code} {e : Symbol × Code}
    (h : e ∈ walk node d n p) : p <+: e.2 := by
  induction d generalizing n p with
  | zero => simp [walk] at h
  | succ d ih =>
    rw [walk] at h
    split at h
    · simp_all
    · rcases List.mem_append.1 h with h | h
      · exact (List.prefix_append _ _).trans (ih h)
      · exact (List.prefix_append _ _).trans (ih h)

end Sys2Proof.Machine
end

