-- ==== Sys2Proof/Tests/Slice0.lean ====
section
/-! SUPPORT. The author's tests: the checks of WellFormed, decoding of words written out from 30_encoding.md R82, one
or two steps per command with the results of 95_test_vectors.md, and for every statement with hypotheses a state and
operands that meet them. -/

set_option Elab.async false

open Sys2Proof Sys2Proof.Machine Sys2Proof.Claims

namespace Sys2Proof.Tests

/-! ## Small states -/

/-- The state a command answers. -/
def after (i : Instr) (s : State) : State :=
  match exec i s with
  | .next t => t
  | .fault _ => s
  | .refused _ => s

theorem exec_after (i : Instr) (s : State) : exec i s = .next (after i s) := by
  obtain ⟨b, hb⟩ := exec_eq_finish i s
  cases b <;> simp [after, hb]

/-- Reset with SYM_IN holding `text` and ILEN its length. -/
def withText (text : List Symbol) : State :=
  { State.reset with symIn := Memory.writeFrom [] 0 text, ilen := BitVec.ofNat 32 text.length }

/-- "aabbbcccc" (95_test_vectors.md S6). -/
def textS6 : List Symbol := [0x61#8, 0x61#8, 0x62#8, 0x62#8, 0x62#8, 0x63#8, 0x63#8, 0x63#8, 0x63#8]

/-- {a:2, b:3, c:4} (C-1). -/
def freqS6 : Vector Word 256 :=
  (((Vector.replicate 256 0#32).set 0x61 2#32).set 0x62 3#32).set 0x63 4#32

/-- c = 0, a = 10, b = 11 (G-5). -/
def tableS6 : CodeTable :=
  (((Vector.replicate 256 []).set 0x61 [true, false]).set 0x62 [true, true]).set 0x63 [false]

/-- The tree of B-4. -/
def arenaS6 : List Node :=
  [leafNode 0x61#8 2#32, leafNode 0x62#8 3#32, leafNode 0x63#8 4#32, internalNode (2#32, 0) (3#32, 1),
   internalNode (4#32, 2) (5#32, 3)]

/-- SYM_IN = "aabbbcccc" with its frequency table. -/
def countedS6 : State := { withText textS6 with freq := freqS6, total := 9#32, ndistinct := 3#9 }

/-- ... with its tree. -/
def treedS6 : State :=
  { countedS6 with
    nodes := Memory.writeFrom [] 0 arenaS6, root := some 4#9, nnodes := 5#10, treeValid := true }

/-- ... with its code table. -/
def codedS6 : State := { treedS6 with codes := some tableS6, maxlen := 2#9, codesValid := true }

/-- ... with its stream of 14 bits in BITS[0], and another BLEN. -/
def streamS6 (blen : Word) : State := { codedS6 with bits := [(0, 0xAFC00000#32)], blen := blen }

/-- ... with its symbols in SYM_OUT. -/
def parsedS6 : State := { streamS6 14#32 with symOut := Memory.writeFrom [] 0 textS6, olen := 9#32 }

/-- {a:4}, the one-symbol table of B-2 and G-3, with the stream of P-12. -/
def streamA : State :=
  { State.reset with
    freq := (Vector.replicate 256 0#32).set 0x61 4#32, total := 4#32, ndistinct := 1#9, nodes := [(0, leafNode 0x61#8 4#32)],
    root := some 0#9, nnodes := 1#10, treeValid := true, codes := some ((Vector.replicate 256 []).set 0x61 [false]),
    maxlen := 1#9, codesValid := true, bits := [(0, 0xFE000000#32)], blen := 7#32 }

/-- Reset with the command word `w` pending. -/
def pendingWord (w : Word) : State := State.reset.accept w

theorem freqOk_reset : State.reset.FreqOk := by decide +kernel

theorem freqOk_S6 : codedS6.FreqOk := by decide +kernel

theorem freqOk_streamA : streamA.FreqOk := by decide +kernel

/-- The tree of B-4 and what is left in the queue. -/
theorem buildTree_S6 : buildTree freqS6 = (arenaS6, [(9#32, 4)]) := by decide +kernel

theorem treeArena_S6 : treeArena freqS6 = arenaS6 := by rw [treeArena, buildTree_S6]

theorem treeRoot_S6 : treeRoot freqS6 = some 4#9 := by rw [treeRoot, buildTree_S6]; rfl

theorem treeOk_S6 : codedS6.TreeOk := by
  intro _
  rw [State.HoldsTree, show codedS6.freq = freqS6 from rfl, treeArena_S6, treeRoot_S6]
  decide +kernel

/-- The symbols of the table of C-1. -/
theorem symbols_S6 (y : Symbol) : entry freqS6 y ≠ 0#32 → y = 0x61#8 ∨ y = 0x62#8 ∨ y = 0x63#8 := by
  revert y; decide +kernel

theorem countTable_S6 : countTable textS6 = freqS6 := by decide +kernel

/-! ## WellFormed -/

theorem test_wf_opcode_refuses : Word.opcodeOk 0x0A000000#32 = false ∧ Word.wf 0x0A000000#32 = false := by decide

theorem test_wf_reserved_refuses : Word.reservedOk 0x02010061#32 = false ∧ Word.wf 0x02010061#32 = false := by decide

theorem test_wf_operand_refuses : Word.operandOk 0x01000001#32 = false ∧ Word.wf 0x01000001#32 = false := by decide

theorem test_wf_word_accepts : Word.wf 0x020000FF#32 = true ∧ Word.wf 0x09000000#32 = true := by decide

theorem test_wf_access_refuses : (Access.read 2 0#20).wf = false ∧ (Access.write 8 0#20 0#32).wf = false := by decide

theorem test_wf_params_refuse :
    (Params.mk 0 32).legal = false ∧ (Params.mk 16385 32).legal = false ∧ (Params.mk 1 0).legal = false ∧
    (Params.mk 1 524320).legal = false ∧ (Params.mk 1 33).legal = false ∧ Config.defaultParams.legal = true := by decide

theorem test_wf_instr : Instr.wf (.freqSet 0xFF#8) = true := rfl

/-! ## Decoding: words written out bit by bit from R82 -/

theorem test_decode_nop : decode 0b00000000_0000000000000000_00000000#32 = .ok .nop := by decide

theorem test_decode_clear : decode 0b00000001_0000000000000000_00000000#32 = .ok .clear := by decide

theorem test_decode_freqSet : decode 0b00000010_0000000000000000_01100001#32 = .ok (.freqSet 0x61#8) := by decide

theorem test_decode_freqCount : decode 0b00000011_0000000000000000_00000000#32 = .ok .freqCount := by decide

theorem test_decode_build : decode 0b00000100_0000000000000000_00000000#32 = .ok .build := by decide

theorem test_decode_gen : decode 0b00000101_0000000000000000_00000000#32 = .ok .gen := by decide

theorem test_decode_map : decode 0b00000110_0000000000000000_00000000#32 = .ok .map := by decide

theorem test_decode_parse : decode 0b00000111_0000000000000000_00000000#32 = .ok .parse := by decide

theorem test_decode_encode : decode 0b00001000_0000000000000000_00000000#32 = .ok .encode := by decide

theorem test_decode_decode : decode 0b00001001_0000000000000000_00000000#32 = .ok .decode := by decide

theorem test_decode_rejects_by_name :
    decode 0x0A000000#32 = .error (.reservedOpcode 0x0A#8) ∧ decode 0x02010061#32 = .error (.reservedBits 0x0100#16) ∧
    decode 0x01000001#32 = .error (.strayOperand 1#8) ∧ decode 0xFF010001#32 = .error (.reservedOpcode 0xFF#8) := by
  decide

theorem test_decodeTableWord : decodeTableWord 32 0x020000FF = some (.freqSet 0xFF#8) := by decide

/-! ## Commands: the vectors of 95_test_vectors.md -/

/-- X-1. -/
theorem test_nop_clears_nothing_else :
    (after .nop (pendingWord 0#32)).statusWord = 0x002#32 ∧ (after .nop treedS6).statusWord = 0x022#32 := by
  decide +kernel

/-- X-2. -/
theorem test_clear :
    (after .clear codedS6).statusWord = 0x002#32 ∧ (after .clear codedS6).total = 0#32 ∧
    (after .clear codedS6).ilen = 0#32 := by decide +kernel

/-- F-1, F-3. -/
theorem test_freqSet :
    (after (.freqSet 0x61#8) { State.reset with arg := 2#32 }).total = 2#32 ∧
    (after (.freqSet 0x61#8) State.reset).statusWord = 0x306#32 ∧
    (after (.freqSet 0x61#8) State.reset).errIdx = 0x61#32 := by decide +kernel

/-- As F-4 and F-5, from {a:2, b:3, c:4}: 2^32 − 1 for b overflows, 2^32 − 1 − 7 for a replaces. -/
theorem test_freqSet_overflow :
    (after (.freqSet 0x62#8) { countedS6 with arg := 0xFFFFFFFF#32 }).statusWord = 0x406#32 ∧
    (after (.freqSet 0x61#8) { countedS6 with arg := 0xFFFFFFF8#32 }).total = 0xFFFFFFFF#32 := by decide +kernel

/-- C-1. -/
theorem test_freqCount :
    entry (after .freqCount (withText textS6)).freq 0x63#8 = 4#32 ∧ (after .freqCount (withText textS6)).total = 9#32 ∧
    (after .freqCount (withText textS6)).ndistinct = 3#9 := by decide +kernel

/-- C-3. -/
theorem test_freqCount_capacity :
    (after .freqCount { State.reset with ilen := 4097#32 }).statusWord = 0x506#32 ∧
    (after .freqCount { State.reset with ilen := 4097#32 }).errIdx = 4097#32 := by decide +kernel

theorem build_S6 : after .build countedS6 = { treedS6 with done := true } := by
  have h : buildBody countedS6 = .ok treedS6 := by
    rw [buildBody, show countedS6.freq = freqS6 from rfl, treeArena_S6, treeRoot_S6]; rfl
  simp only [after, exec, execBuild, h]
  rfl

/-- B-4. -/
theorem test_build :
    (after .build countedS6).rootWord = 0x80000004#32 ∧ (after .build countedS6).nnodes = 5#10 ∧
    (after .build countedS6).readLoc (.nodeL 4) = 0x00030002#32 ∧
    (after .build countedS6).readLoc (.nodeW 3) = 5#32 := by rw [build_S6]; decide +kernel

/-- B-5: c (weight 2, index 2) ties with NODE[3] (weight 2) and is removed first. -/
theorem test_build_tie :
    (after .build { countedS6 with
      freq := (((Vector.replicate 256 0#32).set 0x61 1#32).set 0x62 1#32).set 0x63 2#32 }).readLoc (.nodeL 4) =
      0x00030002#32 := by decide +kernel

/-- G-5. -/
theorem test_gen :
    (after .gen treedS6).codeAt 0x61#8 = [true, false] ∧ (after .gen treedS6).codeAt 0x62#8 = [true, true] ∧
    (after .gen treedS6).codeAt 0x63#8 = [false] := by decide +kernel

/-- G-1, G-3. -/
theorem test_gen_not_ready_and_single :
    (after .gen State.reset).statusWord = 0x606#32 ∧ (after .gen streamA).codeAt 0x61#8 = [false] := by decide +kernel

/-- M-9. -/
theorem test_map :
    (after .map codedS6).bits = [(0, 0xAFC00000#32)] ∧ (after .map codedS6).blen = 14#32 := by
  decide +kernel

/-- M-5. -/
theorem test_map_unknown :
    (after .map { codedS6 with symIn := [(0, 0x61#8), (1, 0x64#8)], ilen := 2#32 }).statusWord = 0x166#32 ∧
    (after .map { codedS6 with symIn := [(0, 0x61#8), (1, 0x64#8)], ilen := 2#32 }).errIdx = 1#32 := by
  decide +kernel

/-- P-1. -/
theorem test_parse :
    (after .parse (streamS6 14#32)).symOut.map Prod.snd = textS6 ∧ (after .parse (streamS6 14#32)).olen = 9#32 := by
  decide +kernel

/-- S6, L3-1. -/
theorem test_encode :
    (after .encode (withText textS6)).bits = [(0, 0xAFC00000#32)] ∧ (after .encode (withText textS6)).blen = 14#32 ∧
    (after .encode (withText textS6)).statusWord = 0x062#32 := by decide +kernel

/-- E-7. -/
theorem test_encode_capacity :
    (after .encode { State.reset with ilen := 5000#32 }).statusWord = 0x506#32 := by decide +kernel

/-- D-1. -/
theorem test_decode :
    (after .decode { countedS6 with bits := [(0, 0xAFC00000#32)], blen := 14#32 }).symOut.map Prod.snd = textS6 := by
  decide +kernel

/-! ## The host bus: H-1, H-2, H-6, H-8, H-9 -/

theorem test_bus_constants :
    State.reset.busRead 0x00000#20 = 0x48554631#32 ∧ State.reset.busRead 0x00038#20 = 4096#32 ∧
    State.reset.busRead 0x0003C#20 = 131072#32 ∧ State.reset.busRead 0x00040#20 = 0#32 := by decide +kernel

theorem test_bus_status_write :
    ({ State.reset with done := true, overrun := true, accessErr := true, treeValid := true }.busWrite 0x00008#20
      0x18#32).statusWord = 0x022#32 := by decide +kernel

theorem test_bus_soft_reset :
    ((pendingWord 0x04000000#32).busWrite 0x00004#20 3#32).pending = none ∧
    ((pendingWord 0x04000000#32).busWrite 0x00004#20 3#32).irqEn = false := by decide +kernel

theorem test_bus_busy_writes :
    ((pendingWord 0x04000000#32).busWrite 0x0000C#20 0x05000000#32).statusWord = 0x009#32 ∧
    ((pendingWord 0x04000000#32).busWrite 0x00014#20 7#32).statusWord = 0x011#32 := by decide +kernel

/-- X-3, through the step. -/
theorem test_step_illegal_word :
    (match step (State.reset.withFetchWord 32 0x0A000000) with
      | .next t => (t.statusWord, t.errIdx)
      | .fault _ => (0#32, 0#32)
      | .refused _ => (0#32, 0#32)) = (0x706#32, 0x0A000000#32) := by decide +kernel

/-- Host statements (R85): the offsets of L3-2. -/
theorem test_host_program :
    hostProgram [.issue (.freqSet 0x61#8 2#32), .loadBits 14#32 [0xAFC00000#32]] =
      [.host (.write 4 0x00010#20 2#32), .host (.write 4 0x0000C#20 0x02000061#32),
       .host (.write 4 0x30000#20 0xAFC00000#32), .host (.write 4 0x00018#20 14#32)] := by decide +kernel

/-! ## Witnesses: states and operands that meet each statement's hypotheses -/

theorem witness_CommandWordTable :
    0x0A ≤ (0x0A000000#32).toNat / 2 ^ 24 ∧ 0x0A ≤ (0xFFFFFFFF#32).toNat / 2 ^ 24 := by decide

theorem witness_PendingWordIsCommandOrIllegal :
    (pendingWord 0x0A000000#32).pending = some 0x0A000000#32 ∧ Illegal 0x0A000000#32 ∧ Illegal 0x02000100#32 ∧
    Illegal 0x01000001#32 ∧ Illegal 0x03000080#32 ∧ ¬ Illegal 0x020000FF#32 ∧ ¬ Illegal 0x09000000#32 := by
  unfold Illegal; decide +kernel

theorem witness_StepRunsTheDecodedCommand :
    (pendingWord 0x04000000#32).pending = some 0x04000000#32 ∧ decode 0x04000000#32 = .ok .build ∧
    ((pendingWord 0x04000000#32).withAgenda [.engine, .rst]).agenda = .engine :: [.rst] ∧
    (pendingWord 0x04000000#32).agenda = [] := by decide +kernel

theorem witness_EmptyLatchIdles : State.reset.pending = none ∧ State.reset.agenda = [] := by decide +kernel

theorem witness_CommandsKeepTheHostSide :
    exec .build State.reset = .next (after .build State.reset) ∧ Instr.build ≠ .clear := ⟨exec_after _ _, by decide⟩

theorem witness_WordAccessAgendasStepOn :
    ({ State.reset with agenda := [.host (.read 4 8#20), .engine, .rst] }).AgendaOk := by
  intro a h
  simp only [List.mem_cons, Turn.host.injEq, reduceCtorEq, List.not_mem_nil, or_false] at h
  subst h; rfl

theorem witness_PendingCommandEventuallyCompletes :
    (pendingWord 0#32).pending ≠ none ∧ (pendingWord 0#32).agenda = List.replicate 0 (rdTurn (.reg .status)) ∧
    ((pendingWord 0#32).withAgenda (List.replicate 2 (rdTurn (.reg .status)))).agenda =
      List.replicate 2 (rdTurn (.reg .status)) := by decide +kernel

theorem witness_OnlyWordAccessesAreAnswered : (0 : Nat) ≠ 4 ∧ (3 : Nat) ≠ 4 ∧ (8 : Nat) ≠ 4 := by decide

theorem witness_ReadsHaveNoSideEffect :
    (0x00010#20).toNat / 4 = (0x00013#20).toNat / 4 ∧ (0xFFFFC#20).toNat / 4 = (0xFFFFF#20).toNat / 4 := by decide

theorem witness_RegisterMapOffsets :
    Config.defaultParams.legal = true ∧ (Params.mk 1 32).legal = true ∧ (Params.mk 16384 524288).legal = true ∧
    (510 : Nat) < 511 ∧ (7 : Nat) < 8 ∧ 16383 < (Params.mk 16384 524288).symCap ∧
    16383 < (Params.mk 16384 524288).bitCap / 32 := by decide

theorem witness_ReservedWordsReadZero :
    State.reset.params.legal = true ∧ (0x10 ≤ (0x00040#20).toNat / 4 ∧ (0x003FC#20).toNat / 4 < 0x100) ∧
    (0x300 ≤ (0x00C00#20).toNat / 4 ∧ (0x00FFC#20).toNat / 4 < 0x400) ∧ (0x037FC#20).toNat / 4 = 0x037FC / 4 ∧
    (0x03FFC#20).toNat / 4 = 0x03FFC / 4 ∧ (0x1000 ≤ (0x04000#20).toNat / 4 ∧ (0x0FFFC#20).toNat / 4 < 0x4000) ∧
    (0x4000 + State.reset.params.symCap ≤ (0x14000#20).toNat / 4 ∧ (0x1FFFC#20).toNat / 4 < 0x8000) ∧
    (0x8000 + State.reset.params.symCap ≤ (0x24000#20).toNat / 4 ∧ (0x2FFFC#20).toNat / 4 < 0xC000) ∧
    0xC000 + State.reset.params.bitCap / 32 ≤ (0x34000#20).toNat / 4 := by decide +kernel

theorem witness_ControlWritesAndSoftReset : (1#32).getLsbD 1 = false ∧ (3#32).getLsbD 1 = true := by decide

theorem witness_CommandAcceptance : State.reset.pending = none ∧ (pendingWord 0#32).pending ≠ none := by
  decide +kernel

/-- The state a step answers. -/
def stepped (s : State) : State :=
  match step s with
  | .next t => t
  | .fault _ => s
  | .refused _ => s

theorem witness_CmdLastChangesOnlyAtAcceptance :
    step { State.reset with agenda := [wrTurn (.reg .cmd) 0xFF000000#32] } =
      .next (stepped { State.reset with agenda := [wrTurn (.reg .cmd) 0xFF000000#32] }) ∧
    (stepped { State.reset with agenda := [wrTurn (.reg .cmd) 0xFF000000#32] }).cmdLast = 0xFF000000#32 ∧
    step { pendingWord 1#32 with agenda := [.rst] } = .next (stepped { pendingWord 1#32 with agenda := [.rst] }) ∧
    (stepped { pendingWord 1#32 with agenda := [.rst] }).cmdLast = 0#32 := by
  refine ⟨rfl, ?_, rfl, ?_⟩ <;> decide +kernel

theorem witness_HostInputsStore :
    State.reset.params.legal = true ∧ State.reset.pending = none ∧ 4095 < State.reset.params.symCap ∧
    4095 < State.reset.params.bitCap / 32 := by decide +kernel

theorem witness_BusyBlockProtectsItsInputs :
    State.reset.pending = none ∧ (pendingWord 0#32).pending ≠ none ∧ locate State.reset.params 0x00010#20 = .reg .arg ∧
    locate State.reset.params 0x00014#20 = .reg .ilen ∧ locate State.reset.params 0x00018#20 = .reg .blen ∧
    locate State.reset.params 0x13FFC#20 = .symIn 4095 ∧ locate State.reset.params 0x33FFC#20 = .bits 4095 ∧
    locate State.reset.params 0x14000#20 = .reserved ∧ locate State.reset.params 0x00008#20 = .reg .status ∧
    locate State.reset.params 0x00004#20 = .reg .ctrl ∧ locate State.reset.params 0x0003C#20 = .reg .paramBitCap ∧
    locate State.reset.params 0x00020#20 ∉ ([.reg .id, .reg .ctrl, .reg .status, .reg .cmd, .reg .paramSymCap,
      .reg .paramBitCap, .reserved] : List Loc) := by decide +kernel

theorem not_softReset_read (p : Params) (n : Nat) (a : Offset) : ¬ SoftReset p (.read n a) := by
  rintro ⟨_, _, h, _⟩; cases h

theorem not_softReset_write (p : Params) (a : Offset) (v : Word) (h : v.getLsbD 1 = false) :
    ¬ SoftReset p (.write 4 a v) := by
  rintro ⟨_, _, e, _, h'⟩; cases e; rw [h] at h'; cases h'

theorem witness_HostCannotDisturbPendingCommand :
    (pendingWord 0#32).pending ≠ none ∧ ¬ SoftReset (pendingWord 0#32).params (.write 4 0x0000C#20 5#32) ∧
    hostStep (.write 4 0x0000C#20 5#32) (pendingWord 0#32) =
      .next ((pendingWord 0#32).busWrite 0x0000C#20 5#32) ∧
    ¬ SoftReset (pendingWord 0#32).params (.read 4 0x00008#20) :=
  ⟨by decide +kernel, not_softReset_write _ _ _ (by decide), rfl, not_softReset_read _ _ _⟩

theorem witness_HostWritesNeverReachDerivedState :
    ¬ SoftReset State.reset.params (.write 4 0x00004#20 1#32) ∧
    hostStep (.write 4 0x00004#20 1#32) State.reset = .next (State.reset.busWrite 0x00004#20 1#32) ∧
    (0x00003#20).toNat / 4 = 0 ∧ (0x0001C / 4 ≤ (0x0001C#20).toNat / 4 ∧ (0x0003F#20).toNat / 4 ≤ 0x0003C / 4) ∧
    (0x00400 / 4 ≤ (0x00400#20).toNat / 4 ∧ (0x00BFF#20).toNat / 4 ≤ 0x00BFC / 4) ∧
    (0x01000 / 4 ≤ (0x01000#20).toNat / 4 ∧ (0x03FFF#20).toNat / 4 ≤ 0x03FFC / 4) ∧
    0x20000 / 4 ≤ (0x20000#20).toNat / 4 ∧ (0x2FFFF#20).toNat / 4 ≤ 0x2FFFC / 4 :=
  ⟨not_softReset_write _ _ _ (by decide), rfl, by decide⟩

theorem witness_ReadOnlyWindows :
    codedS6.params.legal = true ∧ codedS6.pending = none ∧ codedS6.codesValid = true ∧
    codedS6.codes = some tableS6 ∧ (entry tableS6 0x61#8).length ≤ 255 ∧ codedS6.treeValid = true ∧
    4 < codedS6.nnodes.toNat ∧ Memory.read codedS6.nodes 4 = some (internalNode (4#32, 2) (5#32, 3)) ∧
    8 < parsedS6.olen.toNat ∧ 8 < parsedS6.params.symCap ∧
    Memory.read parsedS6.symOut 8 = some 0x63#8 ∧ State.reset.root = none ∧ codedS6.root = some 4#9 ∧
    Memory.read codedS6.symIn 8 = some 0x63#8 ∧ 0 < (streamS6 14#32).params.bitCap / 32 ∧
    Memory.read (streamS6 14#32).bits 0 = some 0xAFC00000#32 :=
  ⟨by decide, rfl, rfl, rfl, by decide +kernel, rfl, by decide, by decide +kernel, by decide, by decide, by decide +kernel,
    rfl, rfl, by decide +kernel, by decide, rfl⟩

theorem witness_IrqStaysUntilCleared :
    let s := { State.reset with irqEn := true, done := true, agenda := [wrTurn (.reg .status) 2#32] }
    step s = .next (stepped s) ∧ s.irq = true ∧ (stepped s).irq = false := by
  refine ⟨rfl, ?_, ?_⟩ <;> decide +kernel

theorem witness_FreqSetReplacesOneCount :
    let s := countedS6
    s.FreqOk ∧ s.arg = 0#32 ∧
    { s with arg := 0xFFFFFFFF#32 }.FreqOk ∧
    2 ^ 32 - 1 < s.total.toNat - (entry s.freq 0x61#8).toNat + (0xFFFFFFF9#32).toNat ∧
    s.total.toNat - (entry s.freq 0x61#8).toNat + (0xFFFFFFF8#32).toNat ≤ 2 ^ 32 - 1 ∧
    entry s.freq 0x64#8 = 0#32 ∧
    s.total.toNat - (entry s.freq 0x64#8).toNat + (1#32).toNat ≤ 2 ^ 32 - 1 := ⟨freqOk_S6, rfl, freqOk_S6, by decide +kernel⟩

theorem witness_FreqCountCountsTheInput :
    State.reset.params.symCap < (4097#32).toNat ∧ (4096#32).toNat ≤ State.reset.params.symCap ∧
    (withText textS6).ilen.toNat ≤ (withText textS6).params.symCap := by decide +kernel

theorem witness_TransmittedTableLoads :
    let ps : List (Symbol × Word) := [(0x63#8, 4#32), (0x61#8, 2#32), (0x62#8, 0xFFFFFFF9#32)]
    (ps.map Prod.fst).Nodup ∧ (∀ p ∈ ps, p.2 ≠ 0#32) ∧ (ps.map (fun p => p.2.toNat)).sum ≤ 2 ^ 32 - 1 := by simp

theorem witness_BuildMergesTheLeastPairs :
    State.reset.FreqOk ∧ streamA.FreqOk ∧ countedS6.FreqOk := ⟨freqOk_reset, freqOk_streamA, freqOk_S6⟩

theorem witness_BuiltTreeShape :
    treedS6.FreqOk ∧ treedS6.HoldsTree ∧ treedS6.ndistinct ≠ 0#9 := ⟨freqOk_S6, treeOk_S6 rfl, by decide⟩

theorem witness_BuildDependsOnFreqAlone :
    countedS6.freq = codedS6.freq ∧ exec .build countedS6 = .next (after .build countedS6) ∧
    exec .build codedS6 = .next (after .build codedS6) := ⟨rfl, exec_after _ _, exec_after _ _⟩

theorem witness_GenSmallTrees :
    State.reset.treeValid = false ∧ { State.reset with treeValid := true }.root = none ∧ streamA.treeValid = true ∧
    streamA.root = some 0#9 ∧ (streamA.nodeAt 0#9).isLeaf = true := by decide +kernel

theorem witness_GenCodesAreRootToLeafPaths :
    treedS6.FreqOk ∧ treedS6.HoldsTree ∧ treedS6.treeValid = true ∧
    2 ≤ treedS6.ndistinct.toNat ∧ treedS6.root = some 4#9 :=
  ⟨freqOk_S6, treeOk_S6 rfl, rfl, by decide, rfl⟩

theorem assignments_S6 : codeAssignments (arenaNode (treeArena freqS6)) (treeRoot freqS6) =
    [(0x63#8, [false]), (0x61#8, [true, false]), (0x62#8, [true, true])] := by
  rw [treeArena_S6, treeRoot_S6]; decide +kernel

theorem codesOf_S6 : codesOf freqS6 = tableS6 := by rw [codesOf, assignments_S6]; decide +kernel

theorem codesOk_S6 : codedS6.CodesOk := fun _ =>
  ⟨rfl, congrArg some codesOf_S6.symm, by rw [show codedS6.freq = freqS6 from rfl, codesOf_S6]; decide +kernel⟩

theorem streamA_codesOk : streamA.CodesOk := by
  have h : codeAssignments (arenaNode (treeArena streamA.freq)) (treeRoot streamA.freq) = [(0x61#8, [false])] := by
    decide +kernel
  have h' : codesOf streamA.freq = (Vector.replicate 256 []).set 0x61 [false] := by
    rw [codesOf, h]; decide +kernel
  exact fun _ => ⟨rfl, congrArg some h'.symm, by rw [h']; decide +kernel⟩

theorem witness_CodeLengthBound :
    codedS6.FreqOk ∧ codedS6.CodesOk ∧ codedS6.codesValid = true ∧
    2 ≤ codedS6.ndistinct.toNat ∧ entry codedS6.freq 0x61#8 ≠ 0#32 ∧
    entry codedS6.freq 0x64#8 = 0#32 :=
  ⟨freqOk_S6, codesOk_S6, rfl, by decide, by decide +kernel, by decide +kernel⟩

theorem witness_CodesPrefixFreeAndComplete :
    codedS6.FreqOk ∧ codedS6.CodesOk ∧ codedS6.codesValid = true ∧
    2 ≤ codedS6.ndistinct.toNat := ⟨freqOk_S6, codesOk_S6, rfl, by decide⟩

/-- Another prefix-free assignment for {a, b, c}: a = 0, b = 10, c = 11. -/
def otherCodes (y : Symbol) : Code :=
  if y = 0x61#8 then [false] else if y = 0x62#8 then [true, false] else [true, true]

theorem witness_CodesAreOptimal :
    codedS6.FreqOk ∧ codedS6.CodesOk ∧ codedS6.codesValid = true ∧ 2 ≤ codedS6.ndistinct.toNat ∧
    PrefixFree codedS6.freq otherCodes := by
  refine ⟨freqOk_S6, codesOk_S6, rfl, by decide, ?_⟩
  intro y z hy hz hne
  rcases symbols_S6 y hy with rfl | rfl | rfl <;> rcases symbols_S6 z hz with rfl | rfl | rfl <;>
    first | exact absurd rfl hne | decide

theorem witness_MapPacksTheCodes :
    State.reset.params.legal = true ∧ State.reset.codesValid = false ∧ codedS6.codesValid = true ∧
    codedS6.params.symCap < (4097#32).toNat ∧ codedS6.ilen.toNat ≤ codedS6.params.symCap ∧
    (∀ z ∈ codedS6.inputSymbols, codedS6.codeAt z ≠ []) ∧
    (codedS6.inputSymbols.flatMap codedS6.codeAt).length ≤ codedS6.params.bitCap := by
  decide +kernel

theorem witness_MapPacksTheCodes_unknown :
    let s := { codedS6 with symIn := [(0, 0x61#8), (1, 0x64#8)], ilen := 2#32 }
    s.params.legal = true ∧ s.codesValid = true ∧ s.ilen.toNat ≤ s.params.symCap ∧
    s.inputSymbols[1]? = some 0x64#8 ∧ (∀ z ∈ s.inputSymbols.take 1, s.codeAt z ≠ []) ∧
    ((s.inputSymbols.take 1).flatMap s.codeAt).length ≤ s.params.bitCap ∧ s.codeAt 0x64#8 = [] := by decide +kernel

/-- "aabbbcccc", then "aabbbcccc" and "aabb": vector M-8 with BIT_CAP = 32. -/
def textM8 : List Symbol := textS6 ++ textS6 ++ [0x61#8, 0x61#8, 0x62#8, 0x62#8]

theorem witness_MapPacksTheCodes_capacity :
    let s := { codedS6 with
      params := ⟨4096, 32⟩, symIn := Memory.writeFrom [] 0 textM8, ilen := 22#32 }
    s.params.legal = true ∧ s.codesValid = true ∧ s.ilen.toNat ≤ s.params.symCap ∧
    s.inputSymbols[20]? = some 0x62#8 ∧ (∀ z ∈ s.inputSymbols.take 20, s.codeAt z ≠ []) ∧
    ((s.inputSymbols.take 20).flatMap s.codeAt).length ≤ s.params.bitCap ∧ s.codeAt 0x62#8 ≠ [] ∧
    s.params.bitCap < ((s.inputSymbols.take 21).flatMap s.codeAt).length := by decide +kernel

/-- The empty table, coded. -/
def emptyCoded : State := after .gen (after .build State.reset)

theorem witness_ParseChecksInOrder :
    State.reset.codesValid = false ∧ emptyCoded.codesValid = true ∧ emptyCoded.params.bitCap < (131073#32).toNat ∧
    (131072#32).toNat ≤ emptyCoded.params.bitCap ∧ emptyCoded.ndistinct = 0#9 ∧ emptyCoded.blen = 0#32 ∧
    (3#32) ≠ 0#32 ∧ (streamS6 14#32).codesValid = true ∧ (streamS6 14#32).ndistinct ≠ 0#9 ∧
    (streamS6 14#32).blen.toNat ≤ (streamS6 14#32).params.bitCap ∧
    ({ streamS6 14#32 with params := ⟨8, 32⟩ }).params.symCap < (streamS6 14#32).total.toNat := by decide +kernel

theorem witness_ParseSingleSymbolIgnoresBits :
    streamA.FreqOk ∧ streamA.CodesOk ∧ streamA.codesValid = true ∧ streamA.ndistinct = 1#9 ∧
    entry streamA.freq 0x61#8 ≠ 0#32 ∧ streamA.total.toNat ≤ streamA.params.symCap ∧
    streamA.blen.toNat ≤ streamA.params.bitCap ∧
    ({ streamA with blen := 131073#32 }).params.bitCap < (131073#32).toNat :=
  ⟨freqOk_streamA, streamA_codesOk, rfl, rfl, by decide +kernel, by decide, by decide, by decide⟩

/-- None of the three codes of G-5 begins `tail`. -/
theorem no_code_begins (tail : Code)
    (h : ¬ [true, false] <+: tail ∧ ¬ [true, true] <+: tail ∧ ¬ [false] <+: tail) :
    ∀ y, entry freqS6 y ≠ 0#32 → ¬ entry tableS6 y <+: tail := by
  intro y hy
  rcases symbols_S6 y hy with rfl | rfl | rfl
  exacts [h.1, h.2.1, h.2.2]

theorem witness_ParseReadsTheCodes :
    (streamS6 14#32).FreqOk ∧ (streamS6 14#32).CodesOk ∧ (streamS6 14#32).codesValid = true ∧
    2 ≤ (streamS6 14#32).ndistinct.toNat ∧ (streamS6 14#32).blen.toNat ≤ (streamS6 14#32).params.bitCap ∧
    (streamS6 14#32).total.toNat ≤ (streamS6 14#32).params.symCap ∧
    (∀ y ∈ textS6, entry (streamS6 14#32).freq y ≠ 0#32) ∧
    (∀ y, entry (streamS6 14#32).freq y ≠ 0#32 → ¬ (streamS6 14#32).codeAt y <+: ([] : Code)) ∧
    (streamS6 14#32).streamBits = textS6.flatMap (streamS6 14#32).codeAt ++ [] ∧
    textS6.length = (streamS6 14#32).total.toNat :=
  ⟨freqOk_S6, codesOk_S6, rfl, by decide, by decide, by decide, by decide +kernel,
    no_code_begins _ (by decide +kernel), by decide +kernel, by decide⟩

/-- One bit less: eight codes and no tail (P-4), and one bit more: ten codes. -/
theorem witness_ParseReadsTheCodes_count :
    (streamS6 13#32).streamBits = (textS6.take 8).flatMap (streamS6 13#32).codeAt ++ [] ∧
    (textS6.take 8).length < (streamS6 13#32).total.toNat ∧
    (streamS6 15#32).streamBits = (textS6 ++ [0x63#8]).flatMap (streamS6 15#32).codeAt ++ [] ∧
    (streamS6 15#32).total.toNat < (textS6 ++ [0x63#8]).length ∧
    (∀ y, entry (streamS6 15#32).freq y ≠ 0#32 → ¬ (streamS6 15#32).codeAt y <+: ([] : Code)) :=
  ⟨by decide +kernel, by decide +kernel, by decide +kernel, by decide +kernel, no_code_begins _ (by decide +kernel)⟩

/-- One bit of the stream: a tail that no code begins (P-9). -/
theorem witness_ParseReadsTheCodes_tail :
    (streamS6 1#32).streamBits = ([] : List Symbol).flatMap (streamS6 1#32).codeAt ++ [true] ∧
    ([] : List Symbol).length ≤ (streamS6 1#32).total.toNat ∧
    (∀ y, entry (streamS6 1#32).freq y ≠ 0#32 → ¬ (streamS6 1#32).codeAt y <+: [true]) ∧ [true] ≠ [] :=
  ⟨by decide +kernel, by decide +kernel, no_code_begins _ (by decide +kernel), by decide⟩

theorem witness_MatcherEqualsTreeWalk :
    codedS6.FreqOk ∧ codedS6.TreeOk ∧ codedS6.CodesOk ∧ codedS6.codesValid = true ∧ 2 ≤ codedS6.ndistinct.toNat ∧
    codedS6.root = some 4#9 := ⟨freqOk_S6, treeOk_S6, codesOk_S6, rfl, by decide, rfl⟩

theorem inputs_S6 : (withText textS6).inputSymbols = textS6 := by decide +kernel

theorem witness_EncodeCompletes :
    (withText textS6).params.legal = true ∧ (withText textS6).ilen.toNat ≤ (withText textS6).params.symCap ∧
    ((withText textS6).inputSymbols.flatMap (entry (codesOf (countTable (withText textS6).inputSymbols)))).length ≤
      (withText textS6).params.bitCap := by
  rw [inputs_S6, countTable_S6, codesOf_S6]; decide +kernel

/-- "aabbbcccc" four times: the counts are 8, 12, 16, and the codes those of S6. -/
def text4 : List Symbol := textS6 ++ textS6 ++ textS6 ++ textS6

theorem codesOf_4 : codesOf (countTable text4) = tableS6 := by
  have h : codeAssignments (arenaNode (treeArena (countTable text4))) (treeRoot (countTable text4)) =
      [(0x63#8, [false]), (0x61#8, [true, false]), (0x62#8, [true, true])] := by decide +kernel
  rw [codesOf, h, ← assignments_S6, ← codesOf, codesOf_S6]

/-- With SYM_CAP = 36 and BIT_CAP = 32, the symbol at index 20 does not fit. -/
theorem witness_EncodeCapacityErrors :
    let s := { withText text4 with params := ⟨36, 32⟩ }
    s.params.legal = true ∧ s.params.symCap < (37#32).toNat ∧ s.ilen.toNat ≤ s.params.symCap ∧ 20 < s.ilen.toNat ∧
    ((s.inputSymbols.take 20).flatMap (entry (codesOf (countTable s.inputSymbols)))).length ≤ s.params.bitCap ∧
    s.params.bitCap <
      ((s.inputSymbols.take 21).flatMap (entry (codesOf (countTable s.inputSymbols)))).length := by
  have h : { withText text4 with params := ⟨36, 32⟩ }.inputSymbols = text4 := by decide +kernel
  simp only [h, codesOf_4]
  decide +kernel

theorem witness_CompositeCommandsAreTheirParts :
    (withText textS6).error = none ∧
    exec .freqCount (withText textS6) = .next (after .freqCount (withText textS6)) ∧
    (after .freqCount (withText textS6)).error = none ∧
    exec .build countedS6 = .next (after .build countedS6) ∧ exec .gen treedS6 = .next (after .gen treedS6) :=
  ⟨rfl, exec_after _ _, by decide +kernel, exec_after _ _, exec_after _ _⟩

theorem witness_DecodeCompletes :
    (streamS6 14#32).FreqOk ∧ 2 ≤ (streamS6 14#32).ndistinct.toNat ∧
    (streamS6 14#32).blen.toNat ≤ (streamS6 14#32).params.bitCap ∧
    (streamS6 14#32).total.toNat ≤ (streamS6 14#32).params.symCap ∧ textS6.length = (streamS6 14#32).total.toNat ∧
    (∀ y ∈ textS6, entry (streamS6 14#32).freq y ≠ 0#32) ∧
    (streamS6 14#32).streamBits = textS6.flatMap (entry (codesOf (streamS6 14#32).freq)) := by
  refine ⟨freqOk_S6, by decide, by decide, by decide, by decide, by decide +kernel, ?_⟩
  rw [show (streamS6 14#32).freq = freqS6 from rfl, codesOf_S6]
  decide +kernel

theorem witness_DecodeInvertsEncode :
    let s := withText textS6
    let t := after .encode s
    s.params.legal = true ∧ s.error = none ∧ exec .encode s = .next t ∧ t.error = none ∧
    s.ilen.toNat ≤ t.params.symCap ∧ t.blen.toNat ≤ t.params.bitCap :=
  ⟨by decide +kernel, rfl, exec_after _ _, by decide +kernel, by decide +kernel, by decide +kernel⟩

theorem witness_TruncatedStreamIsMalformed :
    let s := withText textS6
    let t := after .encode s
    let u := { t with blen := 13#32 }
    s.params.legal = true ∧ s.error = none ∧ exec .encode s = .next t ∧ t.error = none ∧ 2 ≤ t.ndistinct.toNat ∧
    u.freq = t.freq ∧ u.total = t.total ∧ u.ndistinct = t.ndistinct ∧ u.blen.toNat + 1 = t.blen.toNat ∧
    u.bits = t.bits ∧ s.ilen.toNat ≤ u.params.symCap ∧ t.blen.toNat ≤ u.params.bitCap :=
  have h (t : State) : { t with blen := 13#32 }.freq = t.freq ∧ { t with blen := 13#32 }.total = t.total ∧
      { t with blen := 13#32 }.ndistinct = t.ndistinct ∧ { t with blen := 13#32 }.bits = t.bits := ⟨rfl, rfl, rfl, rfl⟩
  ⟨by decide +kernel, rfl, exec_after _ _, by decide +kernel, by decide +kernel, (h _).1, (h _).2.1, (h _).2.2.1,
    by decide +kernel, (h _).2.2.2, by decide +kernel, by decide +kernel⟩

theorem witness_ErrorKindsPerCommand :
    State.reset.params.legal = true ∧ State.reset.error = none ∧
    exec .gen State.reset = .next (after .gen State.reset) ∧ (after .gen State.reset).error = some .notReady :=
  ⟨by decide +kernel, rfl, exec_after _ _, by decide +kernel⟩

theorem witness_ValidityFlagWriters :
    (countedS6.treeValid = false ∧ (after .build countedS6).treeValid = true) ∧
    (treedS6.treeValid = true ∧ (after .clear treedS6).treeValid = false) ∧
    (treedS6.codesValid = false ∧ (after .gen treedS6).codesValid = true) ∧
    (codedS6.codesValid = true ∧ (after .build codedS6).codesValid = false) := by decide +kernel

theorem witness_StaleTablesAreNotReady :
    codedS6.error = none ∧ exec .clear codedS6 = .next (after .clear codedS6) ∧
    (after .clear codedS6).error = none ∧ (after .freqCount codedS6).error = none ∧
    (after (.freqSet 0x61#8) { codedS6 with arg := 1#32 }).error = none :=
  ⟨by decide +kernel, exec_after _ _, by decide +kernel, by decide +kernel, by decide +kernel⟩

theorem witness_UnreadWordsDoNotMatter :
    (∀ j, j < (withText textS6).ilen.toNat →
      Memory.read (Memory.write (withText textS6).symIn 9 0x7A#8) j = Memory.read (withText textS6).symIn j) ∧
    exec .encode (withText textS6) = .next (after .encode (withText textS6)) ∧
    (∀ w, w < ((streamS6 14#32).blen.toNat + 31) / 32 →
      Memory.read (Memory.write (streamS6 14#32).bits 1 1#32) w = Memory.read (streamS6 14#32).bits w) ∧
    exec .parse (streamS6 14#32) = .next (after .parse (streamS6 14#32)) :=
  ⟨by decide +kernel, exec_after _ _, by decide +kernel, exec_after _ _⟩

theorem witness_CommandOverrunInterleavings : State.reset.pending = none := rfl

theorem witness_LegalCommandsAfterReset : Config.defaultParams.legal = true ∧ (Params.mk 1 32).legal = true := by decide

theorem reset_inv : State.reset.Inv :=
  ⟨by decide +kernel, freqOk_reset, by decide +kernel, by decide +kernel, by decide +kernel, by decide +kernel,
    by decide +kernel, by decide +kernel⟩

theorem coded_inv : codedS6.Inv :=
  ⟨by decide +kernel, freqOk_S6, by decide +kernel, by decide +kernel, treeOk_S6, codesOk_S6, by decide +kernel,
    by decide +kernel⟩

theorem witness_StepKeepsTheInvariant :
    State.reset.Inv ∧ codedS6.Inv ∧ step codedS6 = .next codedS6 :=
  ⟨reset_inv, coded_inv, by
    have h : codedS6.pending = none := rfl
    have h' : codedS6.agenda = [] := rfl
    simp [step, h', quietStep, h]⟩

end Sys2Proof.Tests
end

section
/-! SUPPORT. A host access at the offset of a register: one rule for the address map, one for reads, one for writes.
The obligations of 10_state.md on single registers follow from them. -/

namespace Sys2Proof.Machine

/-! ## Registers on the bus -/

@[simp] theorem regAt_regWord (r : Reg) : regAt (regWord r) = some r := by
  cases r <;> rfl

@[simp] theorem locateWord_regWord (p : Params) (r : Reg) : locateWord p (regWord r) = .reg r := by
  simp [locateWord]

theorem locOffset_reg_div_four (r : Reg) : (locOffset (.reg r)).toNat / 4 = regWord r := by
  cases r <;> rfl

@[simp] theorem locate_locOffset_reg (p : Params) (r : Reg) : locate p (locOffset (.reg r)) = .reg r := by
  rw [locate, locOffset_reg_div_four, locateWord_regWord]

/-- R255: a register in the busy-readable set is read, idle or busy, without a draw. -/
theorem State.busRead_reg (s : State) {r : Reg} (h : readableBusy (.reg r) = true) :
    s.busRead (locOffset (.reg r)) = s.readReg r := by
  simp [State.busRead, h, State.readLoc]

theorem State.busWrite_reg (s : State) (r : Reg) (v : Word) :
    s.busWrite (locOffset (.reg r)) v = s.writeLoc (.reg r) v := by
  rw [State.busWrite, locate_locOffset_reg]

/-! ## What a register write does -/

theorem State.clearFlags_eq_ite (s : State) (v : Word) :
    s.clearFlags v =
      { s with
        done := if v.getLsbD 1 then false else s.done, overrun := if v.getLsbD 3 then false else s.overrun,
        accessErr := if v.getLsbD 4 then false else s.accessErr } := by
  have clear (flag bit : Bool) : (flag && !bit) = if bit then false else flag := by cases bit <;> simp
  simp only [State.clearFlags, clear]

theorem State.writeLoc_ctrl_of_set (s : State) {v : Word} (h : v.getLsbD 1 = true) :
    s.writeLoc (.reg .ctrl) v = s.hardReset := by
  simp only [State.writeLoc, h, if_true]

theorem State.writeLoc_ctrl_of_clear (s : State) {v : Word} (h : v.getLsbD 1 = false) :
    s.writeLoc (.reg .ctrl) v = { s with irqEn := v.getLsbD 0 } := by
  simp only [State.writeLoc, h, Bool.false_eq_true, if_false]

theorem takeTurn_rst (s : State) : takeTurn .rst s = .next s.hardReset := rfl

/-! ## The obligations -/

/-- Settles O15: the three registers are read busy or not, and no arm of a location write names them. -/
theorem constantRegisters : Obligations.ConstantRegisters := by
  unfold Obligations.ConstantRegisters
  intro s v
  exact ⟨s.busRead_reg (r := .id) rfl, s.busWrite_reg .id v,
    s.busRead_reg (r := .paramSymCap) rfl, s.busWrite_reg .paramSymCap v,
    s.busRead_reg (r := .paramBitCap) rfl, s.busWrite_reg .paramBitCap v⟩

/-- Settles O17: a STATUS write reaches `State.clearFlags`, which keeps a flag exactly where its bit is 0. -/
theorem statusWriteClearsFlags : Obligations.StatusWriteClearsFlags := by
  unfold Obligations.StatusWriteClearsFlags
  intro s v
  calc s.busWrite 0x00008#20 v = s.clearFlags v := s.busWrite_reg .status v
    _ = _ := s.clearFlags_eq_ite v

/-- Settles O18: the state after the reset turn is `State.hardReset`, field by field. -/
theorem hardwareResetState : Obligations.HardwareResetState := by
  unfold Obligations.HardwareResetState
  intro s
  exact ⟨s.hardReset, takeTurn_rst s, by simp [State.irq], rfl⟩

/-- Settles O19, by the two cases of bit 1 of the value written: with it the write is the reset turn's own state
change. -/
theorem controlWritesAndSoftReset : Obligations.ControlWritesAndSoftReset := by
  unfold Obligations.ControlWritesAndSoftReset
  intro s v
  refine ⟨s.busRead_reg (r := .ctrl) rfl, fun hclear => ?_, fun hset => ?_⟩
  · calc s.busWrite 0x00004#20 v = s.writeLoc (.reg .ctrl) v := s.busWrite_reg .ctrl v
      _ = _ := s.writeLoc_ctrl_of_clear hclear
  · have hreset : s.busWrite 0x00004#20 v = s.hardReset :=
      (s.busWrite_reg .ctrl v).trans (s.writeLoc_ctrl_of_set hset)
    rw [takeTurn_rst, hreset]

end Sys2Proof.Machine
end

section
/-! SUPPORT. The interface of the host bus (20_memory.md): which access widths are answered (R61), which words of the
address map are reserved, and what an access to one does (R64). -/

namespace Sys2Proof.Machine

/-! ## Access widths -/

@[simp] theorem hostStep_read_word (s : State) (a : Offset) :
    hostStep (.read 4 a) s = .next { s with readData := some (s.busRead a) } := rfl

@[simp] theorem hostStep_write_word (s : State) (a : Offset) (v : Word) :
    hostStep (.write 4 a v) s = .next (s.busWrite a v) := rfl

theorem hostStep_read_of_width_ne (s : State) (a : Offset) {n : Nat} (hn : n ≠ 4) :
    hostStep (.read n a) s = .refused (.accessWidth n) := by
  rw [hostStep, if_neg hn]

theorem hostStep_write_of_width_ne (s : State) (a : Offset) (v : Word) {n : Nat} (hn : n ≠ 4) :
    hostStep (.write n a v) s = .refused (.accessWidth n) := by
  rw [hostStep, if_neg hn]

/-! ## Reserved words -/

theorem regAt_eq_none {w : Nat} (h : 0x10 ≤ w) : regAt w = none := by
  obtain ⟨k, rfl⟩ := Nat.exists_eq_add_of_le' h
  rfl

/-- Past the registers, a word outside the nine windows of 10_state.md section 2 is reserved. SYM_IN, SYM_OUT and BITS
end at the instance's capacities. -/
theorem locateWord_eq_reserved {p : Params} {w : Nat} (hreg : 0x10 ≤ w)
    (hfreq : ¬(0x100 ≤ w ∧ w < 0x200)) (hclen : ¬(0x200 ≤ w ∧ w < 0x300)) (hcode : ¬(0x400 ≤ w ∧ w < 0xC00))
    (hnodeW : ¬(0xC00 ≤ w ∧ w < 0xC00 + 511)) (hnodeL : ¬(0xE00 ≤ w ∧ w < 0xE00 + 511))
    (hsymIn : 0x4000 ≤ w ∧ w < 0x8000 → ¬w - 0x4000 < p.symCap)
    (hsymOut : 0x8000 ≤ w ∧ w < 0xC000 → ¬w - 0x8000 < p.symCap)
    (hbits : 0xC000 ≤ w ∧ w < 0x10000 → ¬w - 0xC000 < p.bitCap / 32) : locateWord p w = .reserved := by
  simp only [locateWord, regAt_eq_none hreg, if_neg hfreq, if_neg hclen, if_neg hcode, if_neg hnodeW, if_neg hnodeL]
  split_ifs with hin hcap hout hcap hb hcap
  · exact absurd hcap (hsymIn hin)
  · rfl
  · exact absurd hcap (hsymOut hout)
  · rfl
  · exact absurd hcap (hbits hb)
  · rfl
  · rfl

/-- R255: a reserved word is read, idle or busy, without a draw. -/
theorem State.busRead_of_reserved {s : State} {a : Offset} (h : locate s.params a = .reserved) :
    s.busRead a = 0#32 := by
  simp [State.busRead, h, readableBusy, State.readLoc]

theorem State.busWrite_of_reserved {s : State} {a : Offset} (v : Word) (h : locate s.params a = .reserved) :
    s.busWrite a v = s := by
  calc s.busWrite a v = s.writeLoc .reserved v := by rw [State.busWrite, h]
    _ = s := rfl

/-! ## The obligations -/

/-- Settles O14: a word of R64's ranges lies in none of the windows, so it is located as reserved. -/
theorem reservedWordsReadZero : Obligations.ReservedWordsReadZero := by
  unfold Obligations.ReservedWordsReadZero
  intro s a v _ hrange
  have hloc : locate s.params a = .reserved := by
    apply locateWord_eq_reserved <;> omega
  exact ⟨State.busRead_of_reserved hloc, State.busWrite_of_reserved v hloc⟩

/-- Settles O11, by the width: 4 bytes are answered at every offset, any other number is refused. -/
theorem onlyWordAccessesAreAnswered : Obligations.OnlyWordAccessesAreAnswered := by
  unfold Obligations.OnlyWordAccessesAreAnswered
  intro s n a v
  exact ⟨fun hn => ⟨hostStep_read_of_width_ne s a hn, hostStep_write_of_width_ne s a v hn⟩,
    ⟨_, hostStep_read_word s a⟩, ⟨_, hostStep_write_word s a v⟩⟩

end Sys2Proof.Machine
end

section
/-! SUPPORT. Decoding against encoding (30_encoding.md R80 to R84): a word is either some command's encoding or illegal
by its fields, and the engine's step follows the two cases. -/

namespace Sys2Proof

open Sys2Proof.Claims

/-! ## The fields of a command's word -/

theorem encode_freqSet_toNat (y : Symbol) : (encode (.freqSet y)).toNat = 0x02000000 + y.toNat := by
  have hy : y.toNat < 2 ^ 24 := by omega
  calc (encode (.freqSet y)).toNat = 2 ^ 24 * 2 ||| y.toNat := by
        simp [encode, Nat.mod_eq_of_lt (show y.toNat < 4294967296 by omega)]
    _ = 0x02000000 + y.toNat := (Nat.two_pow_add_eq_or_of_lt hy 2).symm

theorem encode_freqSet_eq_ofNat (y : Symbol) : encode (.freqSet y) = BitVec.ofNat 32 (0x02000000 + y.toNat) := by
  rw [← encode_freqSet_toNat, BitVec.ofNat_toNat, BitVec.setWidth_eq]

@[simp] theorem opField_encode_freqSet (y : Symbol) : opField (encode (.freqSet y)) = 0x02#8 := by
  apply BitVec.eq_of_toNat_eq
  rw [opField_toNat, encode_freqSet_toNat]
  simp only [BitVec.reduceToNat]
  omega

@[simp] theorem symField_encode_freqSet (y : Symbol) : symField (encode (.freqSet y)) = y := by
  apply BitVec.eq_of_toNat_eq
  rw [symField_toNat, encode_freqSet_toNat]
  omega

@[simp] theorem rsvField_encode (i : Instr) : rsvField (encode i) = 0#16 := by
  cases i with
  | freqSet y => exact (Laws.EncodedWordLegal.freqSet y).2
  | _ => rfl

/-! ## The decoder and the encoder -/

/-- The opcode map reads a command back from the fields of its word, and only FREQ_SET's word has an operand. -/
theorem opcodeInstr_encode (i : Instr) :
    opcodeInstr (opField (encode i)) (symField (encode i)) = some i ∧
      (opField (encode i) = 0x02#8 ∨ symField (encode i) = 0#8) := by
  cases i with
  | freqSet y => simp [opcodeInstr]
  | _ => decide

/-- The opcode map reaches a command from no fields but those of its word. -/
theorem fields_eq_of_opcodeInstr {op : BitVec 8} {y : Symbol} {i : Instr} (h : opcodeInstr op y = some i)
    (hy : op = 0x02#8 ∨ y = 0#8) : op = opField (encode i) ∧ y = symField (encode i) := by
  unfold opcodeInstr at h
  split at h
  case h_3 hop =>
    cases h
    exact ⟨by simpa using BitVec.eq_of_toNat_eq hop, (symField_encode_freqSet y).symm⟩
  case h_11 => cases h
  all_goals
    rename_i hop
    cases h
    refine ⟨BitVec.eq_of_toNat_eq hop, hy.resolve_left fun hset => ?_⟩
    simp [hset] at hop

theorem decode_encode (i : Instr) : decode (encode i) = .ok i :=
  have ⟨hop, hsym⟩ := opcodeInstr_encode i
  (decode_eq_ok_iff _ i).2 ⟨hop, rsvField_encode i, hsym⟩

theorem eq_encode_of_decode {w : Word} {i : Instr} (h : decode w = .ok i) : w = encode i := by
  obtain ⟨hop, hrsv, hsym⟩ := (decode_eq_ok_iff w i).1 h
  obtain ⟨ho, hs⟩ := fields_eq_of_opcodeInstr hop hsym
  exact word_eq_of_fields ho (hrsv.trans (rsvField_encode i).symm) hs

theorem encode_injective : Function.Injective encode := fun i j h =>
  Except.ok.inj ((decode_encode i).symm.trans (h ▸ decode_encode j))

/-! ## Illegal words -/

/-- R84's three illegal classes are the negations of R83's three checks. -/
theorem illegal_iff_fields (w : Word) :
    Illegal w ↔ opcodeInstr (opField w) (symField w) = none ∨ rsvField w ≠ 0#16 ∨
      (opField w ≠ 0x02#8 ∧ symField w ≠ 0#8) := by
  simp only [Illegal, opcodeInstr_eq_none_iff, ne_eq, BitVec.toNat_eq, opField_toNat, rsvField_toNat, symField_toNat,
    BitVec.reduceToNat]

theorem exists_decode_of_not_illegal {w : Word} (h : ¬ Illegal w) : ∃ i, decode w = .ok i := by
  simp only [illegal_iff_fields, not_or, not_and_or, not_not] at h
  obtain ⟨hop, hrsv, hsym⟩ := h
  obtain ⟨i, hi⟩ := Option.ne_none_iff_exists'.1 hop
  exact ⟨i, (decode_eq_ok_iff w i).2 ⟨hi, hrsv, hsym⟩⟩

theorem exists_decode_error_of_illegal {w : Word} (h : Illegal w) : ∃ e, decode w = .error e := by
  cases hd : decode w with
  | error e => exact ⟨e, rfl⟩
  | ok i =>
    obtain ⟨hop, hrsv, hsym⟩ := (decode_eq_ok_iff w i).1 hd
    rcases (illegal_iff_fields w).1 h with hnone | hbits | ⟨hset, hstray⟩
    · rw [hop] at hnone
      cases hnone
    · exact absurd hrsv hbits
    · exact absurd hsym (not_or.2 ⟨hset, hstray⟩)

end Sys2Proof

namespace Sys2Proof.Machine

/-! ## The engine's step -/

theorem engineStep_of_decode_ok {s : State} {w : Word} {i : Instr} (hp : s.pending = some w)
    (hd : decode w = .ok i) : engineStep s = exec i s := by
  simp only [engineStep, hp, hd]

theorem engineStep_of_decode_error {s : State} {w : Word} {e : DecodeError} (hp : s.pending = some w)
    (hd : decode w = .error e) : engineStep s = .next (s.raise .illegalCommand w) := by
  simp only [engineStep, hp, hd]

/-! ## The obligations -/

/-- Settles O3: an illegal word has no decoding and takes the error completion, any other word decodes to a command,
and `encode` is injective. -/
theorem pendingWordIsCommandOrIllegal : Obligations.PendingWordIsCommandOrIllegal := by
  unfold Obligations.PendingWordIsCommandOrIllegal
  intro s w hp
  constructor
  · intro hill
    obtain ⟨e, he⟩ := exists_decode_error_of_illegal hill
    exact engineStep_of_decode_error hp he
  · intro hlegal
    obtain ⟨i, hi⟩ := exists_decode_of_not_illegal hlegal
    have hw := eq_encode_of_decode hi
    exact ⟨i, hw, fun j hj => encode_injective (hj.symm.trans hw), engineStep_of_decode_ok hp hi⟩

/-- Settles O2: the words of the table are the encodings of their commands, and an opcode past the table makes a word
illegal. -/
theorem commandWordTable : Obligations.CommandWordTable := by
  unfold Obligations.CommandWordTable
  refine ⟨decode_encode .nop, decode_encode .clear, fun y => ?_, decode_encode .freqCount, decode_encode .build,
    decode_encode .gen, decode_encode .map, decode_encode .parse, decode_encode .encode, decode_encode .decode,
    fun w hop => exists_decode_error_of_illegal (.inl hop)⟩
  rw [← encode_freqSet_eq_ofNat]
  exact decode_encode (.freqSet y)

end Sys2Proof.Machine
end

section
/-! SUPPORT. The frequency table (40_frequency.md): the bounds R45 gives on single counts, and that the words
FREQ_SET (R100) and FREQ_COUNT (R102) write hold their natural numbers exactly. -/

namespace Sys2Proof.Machine

/-! ## Bounds on the table -/

theorem entry_le_freqSum (freq : Vector Word 256) (y : Symbol) : (entry freq y).toNat ≤ freqSum freq :=
  List.le_sum_of_mem (List.mem_map_of_mem (mem_symbols y))

theorem distinctCount_le (freq : Vector Word 256) : distinctCount freq ≤ 256 := by
  calc distinctCount freq ≤ symbols.length := List.countP_le_length
    _ = 256 := symbols_length

theorem countDistinct_le (syms : List Symbol) : countDistinct syms ≤ 256 := by
  calc countDistinct syms ≤ symbols.length := List.countP_le_length
    _ = 256 := symbols_length

theorem zext32_symbol (y : Symbol) : zext32 y = BitVec.ofNat 32 y.toNat := (BitVec.ofNat_toNat 32 y).symm

/-! ## FREQ_SET -/

theorem exec_freqSet (y : Symbol) (s : State) : exec (.freqSet y) s = (freqSetBody y s).finish := rfl

/-- Under R45 the subtraction of R100 is exact (log 21): the old count of `y` leaves TOTAL, the new one enters. -/
theorem State.FreqOk.totalWith_add_entry {s : State} (hok : s.FreqOk) (y : Symbol) (c : Word) :
    s.totalWith y c + (entry s.freq y).toNat = s.total.toNat + c.toNat := by
  have hle : (entry s.freq y).toNat ≤ s.total.toNat := hok.1 ▸ entry_le_freqSum s.freq y
  rw [State.totalWith]
  omega

/-- Under R45 NDISTINCT is at most 256, so one more does not wrap its nine bits. -/
theorem State.FreqOk.ndistinct_succ_toNat {s : State} (hok : s.FreqOk) :
    (s.ndistinct + 1#9).toNat = s.ndistinct.toNat + 1 := by
  have hle : s.ndistinct.toNat ≤ 256 := hok.2 ▸ distinctCount_le s.freq
  rw [BitVec.toNat_add, BitVec.toNat_ofNat]
  omega

/-! ## FREQ_COUNT -/

theorem exec_freqCount (s : State) : exec .freqCount s = (freqCountBody s).finish := rfl

@[simp] theorem State.inputSymbols_length (s : State) : s.inputSymbols.length = s.ilen.toNat := by
  simp [State.inputSymbols]

theorem State.count_inputSymbols (s : State) (y : Symbol) :
    s.inputSymbols.count y = ((List.range s.ilen.toNat).filter (fun i => s.symInAt i == y)).length := by
  rw [State.inputSymbols, List.count, List.countP_map, List.countP_eq_length_filter]
  rfl

/-- A count of at most 2^32 − 1 symbols is exact in its 32-bit word. -/
theorem entry_countTable_toNat {syms : List Symbol} (hlen : syms.length < 2 ^ 32) (y : Symbol) :
    (entry (countTable syms) y).toNat = syms.count y := by
  rw [countTable, entry_tabulate, BitVec.toNat_ofNat]
  exact Nat.mod_eq_of_lt (List.count_le_length.trans_lt hlen)

/-- R102's NDISTINCT is R45's: a symbol occurs exactly when its count is non-zero. -/
theorem distinctCount_countTable {syms : List Symbol} (hlen : syms.length < 2 ^ 32) :
    distinctCount (countTable syms) = countDistinct syms := by
  refine List.countP_congr fun y _ => ?_
  simp [BitVec.toNat_eq, entry_countTable_toNat hlen]

theorem countDistinct_toNat (syms : List Symbol) :
    (BitVec.ofNat 9 (countDistinct syms)).toNat = countDistinct syms := by
  have hle := countDistinct_le syms
  rw [BitVec.toNat_ofNat]
  omega

/-! ## The obligations -/

/-- Settles O30, by the three answers of R100's body; in the last, R45 makes the new TOTAL and NDISTINCT exact. -/
theorem freqSetReplacesOneCount : Obligations.FreqSetReplacesOneCount := by
  unfold Obligations.FreqSetReplacesOneCount
  intro y s hok
  rw [exec_freqSet]
  rcases freqSetBody_cases y s with ⟨hzero, hbody⟩ | ⟨hne, hover, hbody⟩ | ⟨hne, hfits, hbody⟩
  · refine ⟨fun _ => ?_, fun hne => absurd hzero hne, fun hne => absurd hzero hne⟩
    rw [hbody, zext32_symbol]
    rfl
  · refine ⟨fun hzero => absurd hzero hne, fun _ _ => ?_, fun _ hfits => absurd hover (Nat.not_lt.2 hfits)⟩
    rw [hbody, zext32_symbol]
    rfl
  · refine ⟨fun hzero => absurd hzero hne, fun _ hover => absurd hover (Nat.not_lt.2 hfits), fun _ _ => ?_⟩
    refine ⟨_, _, _, congrArg Body.finish hbody, fun z => entry_set s.freq y z s.arg, ?_, ?_⟩
    · have hexact : (BitVec.ofNat 32 (s.totalWith y s.arg)).toNat = s.totalWith y s.arg :=
        Nat.mod_eq_of_lt (Nat.lt_of_le_pred (by decide) hfits)
      rw [State.setFreq_total, hexact, hok.totalWith_add_entry]
    · rw [State.setFreq_ndistinct]
      split
      · exact hok.ndistinct_succ_toNat
      · rfl

/-- Settles O31, by the two answers of R102's body; within capacity, ILEN bounds every count below 2^32. -/
theorem freqCountCountsTheInput : Obligations.FreqCountCountsTheInput := by
  unfold Obligations.FreqCountCountsTheInput
  intro s
  rw [exec_freqCount]
  rcases freqCountBody_cases s with ⟨hover, hbody⟩ | ⟨hfits, hbody⟩
  · exact ⟨fun _ => congrArg Body.finish hbody, fun hfits => absurd hover (Nat.not_lt.2 hfits)⟩
  · refine ⟨fun hover => absurd hover (Nat.not_lt.2 hfits), fun _ => ?_⟩
    have hlen : s.inputSymbols.length < 2 ^ 32 := s.inputSymbols_length ▸ s.ilen.isLt
    refine ⟨_, _, congrArg Body.finish hbody, fun y => ?_, ?_⟩
    · rw [State.setFreq_freq, entry_countTable_toNat hlen, s.count_inputSymbols]
    · rw [State.setFreq_ndistinct, State.setFreq_freq, countDistinct_toNat, ← distinctCount_countTable hlen,
        distinctCount, List.countP_eq_length_filter]

end Sys2Proof.Machine
end

section
/-! SUPPORT. BUILD's merge loop (41_tree_builder.md R120 to R124): an induction principle for the loop, and the
invariant that ties its queue to the arena: the queue holds exactly the nodes that are no node's child yet. -/

namespace Sys2Proof.Machine

open Sys2Proof.Claims

/-! ## The symbols of the table -/

/-- The symbols with a count, in ascending order (R120). -/
def tableSymbols (freq : Vector Word 256) : List Symbol := symbols.filter (fun y => entry freq y != 0#32)

@[simp] theorem mem_tableSymbols {freq : Vector Word 256} {y : Symbol} :
    y ∈ tableSymbols freq ↔ entry freq y ≠ 0#32 := by simp [tableSymbols, mem_symbols]

theorem tableSymbols_nodup (freq : Vector Word 256) : (tableSymbols freq).Nodup := symbols_nodup.filter _

theorem tableSymbols_length (freq : Vector Word 256) : (tableSymbols freq).length = distinctCount freq :=
  List.countP_eq_length_filter.symm

theorem leavesOf_eq_map (freq : Vector Word 256) :
    leavesOf freq = (tableSymbols freq).map (fun y => leafNode y (entry freq y)) := rfl

theorem leavesOf_length (freq : Vector Word 256) : (leavesOf freq).length = distinctCount freq := by
  rw [leavesOf_eq_map, List.length_map, tableSymbols_length]

/-- A symbol without a count adds nothing, so a sum over the table is one over the alphabet. -/
theorem sum_tableSymbols {freq : Vector Word 256} {f : Symbol → Nat} (hf : ∀ y, entry freq y = 0#32 → f y = 0) :
    ((tableSymbols freq).map f).sum = (symbols.map f).sum := by
  have hrest : ((symbols.filter (fun y => ¬ entry freq y ≠ 0#32)).map f).sum = 0 :=
    List.sum_eq_zero fun n hn => by
      obtain ⟨y, hy, rfl⟩ := List.mem_map.1 hn
      exact hf y (by simpa using (List.mem_filter.1 hy).2)
  rw [← List.sum_map_filter_add_sum_map_filter_not (fun y => entry freq y ≠ 0#32) f symbols, hrest, Nat.add_zero,
    tableSymbols]
  congr 3
  funext y
  by_cases h : entry freq y = 0#32 <;> simp [h]

theorem sum_leavesOf_weight (freq : Vector Word 256) :
    ((leavesOf freq).map (fun x => x.weight.toNat)).sum = freqSum freq := by
  rw [leavesOf_eq_map, List.map_map, freqSum]
  exact sum_tableSymbols fun y hy => by simp [leafNode, hy]

/-! ## One round of the loop -/

/-- What a round removes from the queue (R120): the least element `a`, then the least `b` of the rest; `r` stays. -/
structure LeastPair (q : List (Word × Nat)) (a b : Word × Nat) (r : List (Word × Nat)) : Prop where
  perm : q.Perm (a :: b :: r)
  first : ∀ e ∈ b :: r, queueLess e a = false
  second : ∀ e ∈ r, queueLess e b = false

theorem leastPair_of_takeLeast {q q₁ q₂ : List (Word × Nat)} {a b : Word × Nat} (h₁ : takeLeast q = some (a, q₁))
    (h₂ : takeLeast q₁ = some (b, q₂)) : LeastPair q a b q₂ where
  perm := (takeLeast_perm h₁).trans ((takeLeast_perm h₂).cons a)
  first := fun e he => takeLeast_least h₁ e ((takeLeast_perm h₂).mem_iff.2 he)
  second := takeLeast_least h₂

/-- What holds before the loop and is kept by every round holds at its end. -/
theorem mergeRounds_invariant {I : List Node → List (Word × Nat) → Prop}
    (hround : ∀ arena q a b r, I arena q → LeastPair q a b r →
      I (arena ++ [internalNode a b]) (((internalNode a b).weight, arena.length) :: r))
    (n : Nat) {arena : List Node} {q : List (Word × Nat)} (hI : I arena q) :
    I (mergeRounds n arena q).1 (mergeRounds n arena q).2 := by
  induction n generalizing arena q with
  | zero => exact hI
  | succ n ih =>
    rw [mergeRounds]
    split
    · exact hI
    · split
      · exact hI
      · exact ih (hround _ _ _ _ _ hI (leastPair_of_takeLeast ‹_› ‹_›))

/-! ## The queue as the arena determines it -/

theorem weightOf_of_getElem? {arena : List Node} {i : Nat} {x : Node} (h : arena[i]? = some x) :
    weightOf arena i = x.weight.toNat := by simp [weightOf, h]

theorem getElem?_of_prefix {arena arena' : List Node} (h : arena <+: arena') {i : Nat} (hi : i < arena.length) :
    arena'[i]? = arena[i]? := by
  obtain ⟨t, rfl⟩ := h
  exact List.getElem?_append_left hi

theorem weightOf_of_prefix {arena arena' : List Node} (h : arena <+: arena') {i : Nat} (hi : i < arena.length) :
    weightOf arena' i = weightOf arena i := by rw [weightOf, getElem?_of_prefix h hi, weightOf]

/-- Appending nodes does not change which nodes were in the queue earlier. -/
theorem inQueue_of_prefix {arena arena' : List Node} (h : arena <+: arena') {n : Nat} (hn : n ≤ arena.length) :
    InQueue arena' n = InQueue arena n := by
  funext i
  refine propext (and_congr_right fun _ => forall₂_congr fun m x => forall_congr' fun hm => ?_)
  rw [getElem?_of_prefix h (by omega)]

theorem isLeast_of_prefix {arena arena' : List Node} (h : arena <+: arena') {P : Nat → Prop} {a : Nat}
    (hP : ∀ j, P j → j < arena.length) (ha : Claims.IsLeast arena P a) :
    Claims.IsLeast arena' P a := by
  refine ⟨ha.1, fun j hj hne => ?_⟩
  rw [weightOf_of_prefix h (hP a ha.1), weightOf_of_prefix h (hP j hj)]
  exact ha.2 j hj hne

/-- Node `n` is the parent of the least two nodes of the queue it was created from (R120, R122). -/
def MergedAt (arena : List Node) (n : Nat) : Prop :=
  ∃ a b w,
    arena[n]? = some { isLeaf := false, sym := 0#8, weight := w, left := BitVec.ofNat 9 a,
                       right := BitVec.ofNat 9 b } ∧
    Claims.IsLeast arena (InQueue arena n) a ∧ Claims.IsLeast arena (fun j => InQueue arena n j ∧ j ≠ a) b ∧
    w.toNat = weightOf arena a + weightOf arena b

theorem MergedAt.of_prefix {arena arena' : List Node} (h : arena <+: arena') {n : Nat} (hn : n < arena.length)
    (hm : MergedAt arena n) : MergedAt arena' n := by
  obtain ⟨a, b, w, hnode, ha, hb, hw⟩ := hm
  have hqueue : ∀ j, InQueue arena n j → j < arena.length := fun j hj => hj.1.trans hn
  refine ⟨a, b, w, by rw [getElem?_of_prefix h hn, hnode], ?_, ?_, ?_⟩
  · rw [inQueue_of_prefix h hn.le]
    exact isLeast_of_prefix h hqueue ha
  · rw [inQueue_of_prefix h hn.le]
    exact isLeast_of_prefix h (fun j hj => hqueue j hj.1) hb
  · rw [hw, weightOf_of_prefix h (hqueue a ha.1), weightOf_of_prefix h (hqueue b hb.1.1)]

/-! ## The loop's invariant -/

/-- The children of an internal node are older than it. -/
def ChildrenOlder (arena : List Node) : Prop :=
  ∀ (m : Nat) (x : Node), arena[m]? = some x → x.isLeaf = false → x.left.toNat < m ∧ x.right.toNat < m

/-- The loop's invariant: children are older than their parents, the queue lists the nodes without a parent, each once
and with its weight, all weights together fit a word, and the nodes to come fit the node store. -/
structure QueueOk (arena : List Node) (q : List (Word × Nat)) : Prop where
  older : ChildrenOlder arena
  mem_iff : ∀ i, i ∈ q.map Prod.snd ↔ InQueue arena arena.length i
  nodup : (q.map Prod.snd).Nodup
  weight : ∀ e ∈ q, e.1.toNat = weightOf arena e.2
  fits : (q.map (fun e => e.1.toNat)).sum < 2 ^ 32
  room : arena.length + q.length ≤ 512

section
variable {arena : List Node} {q r : List (Word × Nat)} {a b : Word × Nat}

theorem QueueOk.inQueue (h : QueueOk arena q) {e : Word × Nat} (he : e ∈ q) : InQueue arena arena.length e.2 :=
  (h.mem_iff e.2).1 (List.mem_map_of_mem he)

theorem LeastPair.mem_left (h : LeastPair q a b r) : a ∈ q := h.perm.mem_iff.2 (by simp)

theorem LeastPair.mem_right (h : LeastPair q a b r) : b ∈ q := h.perm.mem_iff.2 (by simp)

theorem LeastPair.mem_rest (h : LeastPair q a b r) {e : Word × Nat} (he : e ∈ r) : e ∈ q :=
  h.perm.mem_iff.2 (by simp [he])

theorem LeastPair.nodup (h : LeastPair q a b r) (hq : QueueOk arena q) :
    (a.2 :: b.2 :: r.map Prod.snd).Nodup := (h.perm.map Prod.snd).nodup_iff.1 hq.nodup

theorem LeastPair.fits (h : LeastPair q a b r) (hq : QueueOk arena q) :
    a.1.toNat + (b.1.toNat + (r.map (fun e => e.1.toNat)).sum) < 2 ^ 32 := by
  have hsum := hq.fits
  rw [(h.perm.map _).sum_eq] at hsum
  simpa using hsum

/-- The new node's 32-bit sum does not wrap (R121). -/
theorem LeastPair.weight_toNat (h : LeastPair q a b r) (hq : QueueOk arena q) :
    (internalNode a b).weight.toNat = a.1.toNat + b.1.toNat := by
  have := h.fits hq
  rw [internalNode, BitVec.toNat_add]
  exact Nat.mod_eq_of_lt (by omega)

/-- The new node's index is below 511, so the indices in the queue fit nine bits. -/
theorem LeastPair.index_toNat (h : LeastPair q a b r) (hq : QueueOk arena q) {e : Word × Nat} (he : e ∈ q) :
    (BitVec.ofNat 9 e.2).toNat = e.2 := by
  have hroom := hq.room
  rw [h.perm.length_eq, List.length_cons, List.length_cons] at hroom
  have hlt := (hq.inQueue he).1
  rw [BitVec.toNat_ofNat]
  exact Nat.mod_eq_of_lt (by omega)

theorem LeastPair.left_toNat (h : LeastPair q a b r) (hq : QueueOk arena q) :
    (internalNode a b).left.toNat = a.2 := h.index_toNat hq h.mem_left

theorem LeastPair.right_toNat (h : LeastPair q a b r) (hq : QueueOk arena q) :
    (internalNode a b).right.toNat = b.2 := h.index_toNat hq h.mem_right

/-- An element that is not before `a` in the queue's order is after it, unless it has the same index (R122). -/
theorem weight_lt_or_of_queueLess_eq_false (hq : QueueOk arena q) {e : Word × Nat} (ha : a ∈ q) (he : e ∈ q)
    (hless : queueLess e a = false) (hne : e.2 ≠ a.2) :
    weightOf arena a.2 < weightOf arena e.2 ∨ (weightOf arena a.2 = weightOf arena e.2 ∧ a.2 < e.2) := by
  rw [← hq.weight a ha, ← hq.weight e he]
  rw [Bool.eq_false_iff, Ne, queueLess_iff] at hless
  omega

theorem LeastPair.isLeast_left (h : LeastPair q a b r) (hq : QueueOk arena q) :
    Claims.IsLeast arena (InQueue arena arena.length) a.2 := by
  refine ⟨hq.inQueue h.mem_left, fun j hj hne => ?_⟩
  obtain ⟨e, he, rfl⟩ := List.mem_map.1 ((hq.mem_iff j).2 hj)
  rcases List.mem_cons.1 (h.perm.mem_iff.1 he) with rfl | hrest
  · exact absurd rfl hne
  · exact weight_lt_or_of_queueLess_eq_false hq h.mem_left he (h.first e hrest) hne

theorem LeastPair.isLeast_right (h : LeastPair q a b r) (hq : QueueOk arena q) :
    Claims.IsLeast arena (fun j => InQueue arena arena.length j ∧ j ≠ a.2) b.2 := by
  have hnodup := h.nodup hq
  refine ⟨⟨hq.inQueue h.mem_right, fun hab => by simp [hab] at hnodup⟩, fun j ⟨hj, hja⟩ hne => ?_⟩
  obtain ⟨e, he, rfl⟩ := List.mem_map.1 ((hq.mem_iff j).2 hj)
  rcases List.mem_cons.1 (h.perm.mem_iff.1 he) with rfl | hrest
  · exact absurd rfl hja
  rcases List.mem_cons.1 hrest with rfl | hrest
  · exact absurd rfl hne
  · exact weight_lt_or_of_queueLess_eq_false hq h.mem_right he (h.second e hrest) hne

/-- The node a round appends is the parent of the least two. -/
theorem LeastPair.mergedAt (h : LeastPair q a b r) (hq : QueueOk arena q) :
    MergedAt (arena ++ [internalNode a b]) arena.length := by
  have hprefix := List.prefix_append arena [internalNode a b]
  have hweight : ∀ e ∈ q, weightOf (arena ++ [internalNode a b]) e.2 = e.1.toNat := fun e he => by
    rw [weightOf_of_prefix hprefix (hq.inQueue he).1, hq.weight e he]
  refine ⟨a.2, b.2, (internalNode a b).weight, List.getElem?_concat_length, ?_, ?_, ?_⟩
  · rw [inQueue_of_prefix hprefix le_rfl]
    exact isLeast_of_prefix hprefix (fun j hj => hj.1) (h.isLeast_left hq)
  · rw [inQueue_of_prefix hprefix le_rfl]
    exact isLeast_of_prefix hprefix (fun j hj => hj.1.1) (h.isLeast_right hq)
  · rw [hweight a h.mem_left, hweight b h.mem_right, h.weight_toNat hq]

/-- An internal node that is appended enters the queue, and its children leave it. -/
theorem inQueue_append {x : Node} {i : Nat} (hx : x.isLeaf = false) (holder : ChildrenOlder arena) :
    InQueue (arena ++ [x]) (arena.length + 1) i ↔
      (i = arena.length ∨ InQueue arena arena.length i) ∧ i ≠ x.left.toNat ∧ i ≠ x.right.toNat := by
  constructor
  · rintro ⟨hi, hnot⟩
    refine ⟨(Nat.lt_succ_iff_lt_or_eq.1 hi).symm.imp_right fun hlt => ⟨hlt, fun m y hm hy => ?_⟩, ?_⟩
    · exact hnot m y (by omega) (by rw [List.getElem?_append_left hm, hy])
    · have := hnot arena.length x (by omega) List.getElem?_concat_length hx
      exact ⟨this.1.symm, this.2.symm⟩
  · rintro ⟨hi, hl, hr⟩
    have hlt : i < arena.length + 1 := by
      rcases hi with rfl | hi
      · exact Nat.lt_succ_self _
      · exact Nat.lt_succ_of_lt hi.1
    refine ⟨hlt, fun m y hm hy hleaf => ?_⟩
    rcases Nat.lt_succ_iff_lt_or_eq.1 hm with hm | rfl
    · rw [List.getElem?_append_left hm] at hy
      rcases hi with rfl | hi
      · have := holder m y hy hleaf
        omega
      · exact hi.2 m y hm hy hleaf
    · rw [List.getElem?_concat_length, Option.some.injEq] at hy
      subst hy
      exact ⟨hl.symm, hr.symm⟩

theorem LeastPair.childrenOlder (h : LeastPair q a b r) (hq : QueueOk arena q) :
    ChildrenOlder (arena ++ [internalNode a b]) := by
  intro m x hx hleaf
  rcases Nat.lt_or_ge m arena.length with hm | hm
  · rw [List.getElem?_append_left hm] at hx
    exact hq.older m x hx hleaf
  · obtain ⟨hlt, -⟩ := List.getElem?_eq_some_iff.1 hx
    obtain rfl : m = arena.length := by rw [List.length_append, List.length_singleton] at hlt; omega
    rw [List.getElem?_concat_length, Option.some.injEq] at hx
    rw [← hx, h.left_toNat hq, h.right_toNat hq]
    exact ⟨(hq.inQueue h.mem_left).1, (hq.inQueue h.mem_right).1⟩

/-- The new queue lists the nodes without a parent in the new arena: `a` and `b` have one now. -/
theorem LeastPair.mem_iff_inQueue (h : LeastPair q a b r) (hq : QueueOk arena q) (i : Nat) :
    i ∈ arena.length :: r.map Prod.snd ↔ InQueue (arena ++ [internalNode a b]) (arena.length + 1) i := by
  have hnodup := h.nodup hq
  have hmem : InQueue arena arena.length i ↔ i ∈ a.2 :: b.2 :: r.map Prod.snd := by
    rw [← hq.mem_iff, (h.perm.map Prod.snd).mem_iff, List.map_cons, List.map_cons]
  have ha := (hq.inQueue h.mem_left).1
  have hb := (hq.inQueue h.mem_right).1
  rw [inQueue_append rfl hq.older, h.left_toNat hq, h.right_toNat hq, hmem]
  simp only [List.mem_cons, List.nodup_cons] at hnodup ⊢
  constructor
  · rintro (rfl | hi)
    · exact ⟨.inl rfl, by omega, by omega⟩
    · exact ⟨.inr (.inr (.inr hi)), by rintro rfl; tauto, by rintro rfl; tauto⟩
  · tauto

/-- Every round keeps the invariant. -/
theorem QueueOk.round (hq : QueueOk arena q) (h : LeastPair q a b r) :
    QueueOk (arena ++ [internalNode a b]) (((internalNode a b).weight, arena.length) :: r) where
  older := h.childrenOlder hq
  mem_iff := fun i => by
    rw [List.map_cons, List.length_append, List.length_singleton]
    exact h.mem_iff_inQueue hq i
  nodup := by
    have hnodup := h.nodup hq
    rw [List.map_cons, List.nodup_cons]
    refine ⟨fun hmem => ?_, hnodup.of_cons.of_cons⟩
    obtain ⟨e, he, heq⟩ := List.mem_map.1 hmem
    exact absurd (hq.inQueue (h.mem_rest he)).1 (by rw [heq]; exact lt_irrefl _)
  weight := fun e he => by
    rcases List.mem_cons.1 he with rfl | he
    · rw [weightOf_of_getElem? List.getElem?_concat_length]
    · rw [weightOf_of_prefix (List.prefix_append _ _) (hq.inQueue (h.mem_rest he)).1, hq.weight e (h.mem_rest he)]
  fits := by
    have := h.fits hq
    rw [List.map_cons, List.sum_cons, h.weight_toNat hq]
    omega
  room := by
    have := hq.room
    rw [h.perm.length_eq] at this
    simp only [List.length_append, List.length_cons, List.length_nil] at this ⊢
    omega

end

/-! ## The loop of BUILD -/

theorem leafQueue_map_snd (leaves : List Node) : (leafQueue leaves).map Prod.snd = List.range leaves.length := by
  rw [leafQueue, List.map_map, List.range_eq_range', ← List.zipIdx_map_snd 0 leaves]
  rfl

theorem leafQueue_map_fst (leaves : List Node) :
    (leafQueue leaves).map Prod.fst = leaves.map Node.weight := by
  conv_rhs => rw [← List.zipIdx_map_fst 0 leaves, List.map_map]
  rw [leafQueue, List.map_map]
  rfl

theorem isLeaf_of_mem_leavesOf {freq : Vector Word 256} {x : Node} (h : x ∈ leavesOf freq) : x.isLeaf = true := by
  obtain ⟨y, -, rfl⟩ := List.mem_map.1 h
  rfl

theorem isLeaf_of_leavesOf_getElem? {freq : Vector Word 256} {m : Nat} {x : Node} (h : (leavesOf freq)[m]? = some x) :
    x.isLeaf = true := isLeaf_of_mem_leavesOf (List.mem_of_getElem? h)

theorem queueOk_leaves {freq : Vector Word 256} (hfits : freqSum freq < 2 ^ 32) :
    QueueOk (leavesOf freq) (leafQueue (leavesOf freq)) where
  older := fun m x hx hleaf => by simp [isLeaf_of_leavesOf_getElem? hx] at hleaf
  mem_iff := fun i => by
    rw [leafQueue_map_snd, List.mem_range]
    exact ⟨fun hi => ⟨hi, fun m x _ hx hleaf => by simp [isLeaf_of_leavesOf_getElem? hx] at hleaf⟩, fun hi => hi.1⟩
  nodup := leafQueue_map_snd _ ▸ List.nodup_range
  weight := fun e he => by
    obtain ⟨⟨x, i⟩, hx, rfl⟩ := List.mem_map.1 he
    rw [weightOf_of_getElem? (List.mem_zipIdx_iff_getElem?.1 hx)]
  fits := by
    rw [← sum_leavesOf_weight] at hfits
    rwa [show (fun e : Word × Nat => e.1.toNat) = BitVec.toNat ∘ Prod.fst from rfl, ← List.map_map,
      leafQueue_map_fst, List.map_map]
  room := by
    have := leavesOf_length_le freq
    simp only [leafQueue, List.length_map, List.length_zipIdx]
    omega

theorem queueOk_buildTree {freq : Vector Word 256} (hfits : freqSum freq < 2 ^ 32) :
    QueueOk (treeArena freq) (buildTree freq).2 :=
  mergeRounds_invariant (fun _ _ _ _ _ => QueueOk.round) _ (queueOk_leaves hfits)

/-- Every node past the leaves was merged from the least two of its queue. -/
theorem mergedAt_treeArena {freq : Vector Word 256} (hfits : freqSum freq < 2 ^ 32) {n : Nat}
    (hk : (leavesOf freq).length ≤ n) (hn : n < (treeArena freq).length) : MergedAt (treeArena freq) n := by
  have hinv := mergeRounds_invariant
    (I := fun arena q => QueueOk arena q ∧ ∀ n, (leavesOf freq).length ≤ n → n < arena.length → MergedAt arena n)
    (fun arena q a b r ⟨hq, hmerged⟩ hpair => ⟨hq.round hpair, fun n hk hn => by
      rw [List.length_append, List.length_singleton] at hn
      rcases Nat.lt_succ_iff_lt_or_eq.1 hn with hn | rfl
      · exact (hmerged n hk hn).of_prefix (List.prefix_append _ _) hn
      · exact hpair.mergedAt hq⟩)
    (leavesOf freq).length ⟨queueOk_leaves hfits, fun n hk hn => absurd hn (Nat.not_lt.2 hk)⟩
  exact hinv.2 n hk hn

/-- The loop ends with the last node alone in the queue (R120). -/
theorem buildTree_queue {freq : Vector Word 256} (hfits : freqSum freq < 2 ^ 32) (hne : leavesOf freq ≠ []) :
    ∃ w, (buildTree freq).2 = [(w, (treeArena freq).length - 1)] := by
  have hq := queueOk_buildTree hfits
  have hlen := treeArena_length freq
  have hpos := List.length_pos_iff.2 hne
  obtain ⟨e, he⟩ : ∃ e, (buildTree freq).2 = [e] := List.length_eq_one_iff.1
    (mergeRounds_lengths _ _ _ (by simpa [leafQueue] using hne) (by simp [leafQueue])).2
  have hlast : InQueue (treeArena freq) (treeArena freq).length ((treeArena freq).length - 1) := by
    refine ⟨by omega, fun m x hm hx hleaf => ?_⟩
    have := hq.older m x hx hleaf
    omega
  rw [← hq.mem_iff, he] at hlast
  have hindex : (treeArena freq).length - 1 = e.2 := by simpa using hlast
  exact ⟨e.1, by rw [he, hindex]⟩

theorem treeRoot_eq {freq : Vector Word 256} (hfits : freqSum freq < 2 ^ 32) :
    treeRoot freq =
      if distinctCount freq = 0 then none else some (BitVec.ofNat 9 (2 * distinctCount freq - 2)) := by
  rw [← leavesOf_length]
  split
  · next h => rw [treeRoot, buildTree, List.length_eq_zero_iff.1 h]; rfl
  · next h =>
    obtain ⟨w, hw⟩ := buildTree_queue hfits (mt List.length_eq_zero_iff.2 h)
    rw [treeRoot, hw, treeArena_length]
    rfl

theorem State.FreqOk.fits {s : State} (hok : s.FreqOk) : freqSum s.freq < 2 ^ 32 := hok.1 ▸ s.total.isLt

theorem exec_build (s : State) : exec .build s = (buildBody s).finish := rfl

/-- Settles O33: the arena is the loop's, whose rounds append the parent of the least two nodes of the queue. -/
theorem buildMergesTheLeastPairs : Obligations.BuildMergesTheLeastPairs := by
  unfold Obligations.BuildMergesTheLeastPairs
  intro s hok
  have hk : s.ndistinct.toNat = (leavesOf s.freq).length := by rw [leavesOf_length, hok.2]
  refine ⟨treeArena s.freq, treeRoot s.freq, Memory.writeFrom s.nodes 0 (treeArena s.freq), exec_build s, ?_, ?_,
    ?_, ?_, ?_, ?_⟩
  · intro i hi
    rw [Memory.read_writeFrom, if_pos (by omega), Nat.sub_zero]
  · intro i hi
    rw [Memory.read_writeFrom, if_neg (by omega)]
  · rw [hk, treeArena_length]
  · rw [hk]
    exact (List.prefix_iff_eq_take.1 (mergeRounds_prefix _ _ _)).symm
  · intro n hn hlt
    exact mergedAt_treeArena hok.fits (hk ▸ hn) hlt
  · rw [treeRoot_eq hok.fits, ← hok.2]
    simp [BitVec.toNat_eq]

end Sys2Proof.Machine
end

section
/-! SUPPORT. Code lengths, for R125 of 41_tree_builder.md. A `PrefixFree` assignment meets Kraft's inequality, and
lengths that meet it can be changed, at no cost, so that the least two weights have one common length; their parent
then takes that length less one. This is one round of BUILD's merge loop, seen from the competing code. -/

namespace Sys2Proof.Machine

open Sys2Proof.Claims

/-! ## Kraft sums -/

/-- The Kraft sum of a collection of code lengths. -/
noncomputable def kraftSum (lens : Multiset Nat) : ℝ := (lens.map fun n => (1 / 2 : ℝ) ^ n).sum

@[simp] theorem kraftSum_cons (n : Nat) (lens : Multiset Nat) :
    kraftSum (n ::ₘ lens) = (1 / 2) ^ n + kraftSum lens := by
  simp [kraftSum]

theorem kraftSum_nonneg (lens : Multiset Nat) : 0 ≤ kraftSum lens :=
  Multiset.sum_nonneg fun x hx => by
    obtain ⟨n, -, rfl⟩ := Multiset.mem_map.1 hx
    positivity

theorem half_pow_mul_two_pow {m n : Nat} (h : n ≤ m) : (1 / 2 : ℝ) ^ n * 2 ^ m = 2 ^ (m - n) := by
  rw [one_div_pow, one_div, pow_sub₀ _ two_ne_zero h, mul_comm]

/-- Counted in units of the longest length, a Kraft sum is a natural number. -/
theorem exists_kraftSum_mul_eq_natCast {m : Nat} {lens : Multiset Nat} (h : ∀ n ∈ lens, n ≤ m) :
    ∃ k : Nat, kraftSum lens * 2 ^ m = k := by
  induction lens using Multiset.induction with
  | empty => exact ⟨0, by simp [kraftSum]⟩
  | cons n lens ih =>
    obtain ⟨k, hk⟩ := ih fun l hl => h l (Multiset.mem_cons_of_mem hl)
    refine ⟨2 ^ (m - n) + k, ?_⟩
    rw [kraftSum_cons, add_mul, hk, half_pow_mul_two_pow (h n (Multiset.mem_cons_self _ _))]
    push_cast
    rfl

/-- If no other length is above `n`, then the first code may have length `n` as well. -/
theorem kraftSum_shorten {m n : Nat} {lens : Multiset Nat} (hmax : ∀ l ∈ lens, l ≤ n)
    (h : kraftSum (m ::ₘ n ::ₘ lens) ≤ 1) : kraftSum (n ::ₘ n ::ₘ lens) ≤ 1 := by
  obtain ⟨k, hk⟩ := exists_kraftSum_mul_eq_natCast hmax
  have hunit : (1 / 2 : ℝ) ^ n * 2 ^ n = 1 := by rw [half_pow_mul_two_pow le_rfl, Nat.sub_self, pow_zero]
  have htwo : (0 : ℝ) < 2 ^ n := by positivity
  rw [← mul_le_iff_le_one_left htwo, kraftSum_cons, kraftSum_cons, add_mul, add_mul, hunit, hk] at h ⊢
  have hpos : (0 : ℝ) < (1 / 2) ^ m * 2 ^ n := by positivity
  have hlt : (1 + k : ℝ) < 2 ^ n := (lt_add_of_pos_left _ hpos).trans_le h
  have hnat : 1 + (1 + k) ≤ 2 ^ n := by
    have : 1 + k < 2 ^ n := by exact_mod_cast hlt
    omega
  exact_mod_cast hnat

/-! ## The least two weights take one length -/

/-- The cost of weights with lengths: the sum of WEIGHT × length over the pairs. -/
def lengthCost (P : Multiset (Nat × Nat)) : Nat := (P.map fun p => p.1 * p.2).sum

@[simp] theorem lengthCost_cons (p : Nat × Nat) (P : Multiset (Nat × Nat)) :
    lengthCost (p ::ₘ P) = p.1 * p.2 + lengthCost P := by simp [lengthCost]

/-- Handing the longest length to a weight that is least costs nothing. -/
theorem exists_exchange (x l : Nat) (P : Multiset (Nat × Nat)) (hx : ∀ p ∈ P, x ≤ p.1) :
    ∃ (l' : Nat) (P' : Multiset (Nat × Nat)), P'.map Prod.fst = P.map Prod.fst ∧
      l' ::ₘ P'.map Prod.snd = l ::ₘ P.map Prod.snd ∧ (∀ n ∈ P'.map Prod.snd, n ≤ l') ∧
      x * l' + lengthCost P' ≤ x * l + lengthCost P := by
  induction P using Multiset.induction with
  | empty => exact ⟨l, 0, rfl, rfl, by simp, le_rfl⟩
  | cons p P ih =>
    obtain ⟨l', P', hfst, hsnd, hmax, hcost⟩ := ih fun p hp => hx p (Multiset.mem_cons_of_mem hp)
    have hxp := hx p (Multiset.mem_cons_self _ _)
    rcases le_total p.2 l' with hle | hle
    · refine ⟨l', p ::ₘ P', by simp [hfst], ?_, ?_, ?_⟩
      · rw [Multiset.map_cons, Multiset.cons_swap, hsnd, Multiset.cons_swap, Multiset.map_cons]
      · simpa using ⟨hle, by simpa using hmax⟩
      · simp only [lengthCost_cons]
        omega
    · refine ⟨p.2, (p.1, l') ::ₘ P', by simp [hfst], ?_, ?_, ?_⟩
      · rw [Multiset.map_cons, hsnd, Multiset.cons_swap, Multiset.map_cons]
      · rw [Multiset.map_cons, Multiset.forall_mem_cons]
        exact ⟨hle, fun n hn => (hmax n hn).trans hle⟩
      · have hswap : x * p.2 + p.1 * l' ≤ x * l' + p.1 * p.2 := mul_add_mul_le_mul_add_mul hxp hle
        simp only [lengthCost_cons]
        omega

/-- So a least weight may be taken to have the longest length. -/
theorem exists_longest {x : Nat} {W : Multiset Nat} {P : Multiset (Nat × Nat)} (hP : P.map Prod.fst = x ::ₘ W)
    (hx : ∀ w ∈ W, x ≤ w) :
    ∃ (l : Nat) (P' : Multiset (Nat × Nat)), P'.map Prod.fst = W ∧ l ::ₘ P'.map Prod.snd = P.map Prod.snd ∧
      (∀ n ∈ P'.map Prod.snd, n ≤ l) ∧ x * l + lengthCost P' ≤ lengthCost P := by
  obtain ⟨p, hp, rfl, hrest⟩ := (Multiset.map_eq_cons _ _ _ _).2 hP
  obtain ⟨l, P', hfst, hsnd, hmax, hcost⟩ := exists_exchange p.1 p.2 (P.erase p) fun r hr =>
    hx r.1 (hrest ▸ Multiset.mem_map_of_mem _ hr)
  rw [← Multiset.cons_erase hp, Multiset.map_cons, lengthCost_cons]
  exact ⟨l, P', hfst.trans hrest, hsnd, hmax, hcost⟩

/-- Merging the least two weights: their parent takes their common length less one. -/
theorem exists_merged_lengths {a b : Nat} {W : Multiset Nat} {P : Multiset (Nat × Nat)}
    (hP : P.map Prod.fst = a ::ₘ b ::ₘ W) (ha : ∀ w ∈ b ::ₘ W, a ≤ w) (hb : ∀ w ∈ W, b ≤ w)
    (hkraft : kraftSum (P.map Prod.snd) ≤ 1) :
    ∃ P' : Multiset (Nat × Nat), P'.map Prod.fst = (a + b) ::ₘ W ∧ kraftSum (P'.map Prod.snd) ≤ 1 ∧
      lengthCost P' + (a + b) ≤ lengthCost P := by
  obtain ⟨m, P₁, hfst₁, hsnd₁, hmax₁, hcost₁⟩ := exists_longest hP ha
  obtain ⟨n, P₂, hfst₂, hsnd₂, hmax₂, hcost₂⟩ := exists_longest hfst₁ hb
  have hnm : n ≤ m := hmax₁ n (hsnd₂ ▸ Multiset.mem_cons_self _ _)
  rw [← hsnd₁, ← hsnd₂] at hkraft
  have hshort := kraftSum_shorten hmax₂ hkraft
  have hrest := kraftSum_nonneg (P₂.map Prod.snd)
  rw [kraftSum_cons, kraftSum_cons] at hshort
  cases n with
  | zero => norm_num at hshort; linarith
  | succ n =>
    refine ⟨(a + b, n) ::ₘ P₂, by simp [hfst₂], ?_, ?_⟩
    · rw [Multiset.map_cons, kraftSum_cons]
      calc (1 / 2 : ℝ) ^ n + kraftSum (P₂.map Prod.snd)
          = (1 / 2) ^ (n + 1) + ((1 / 2) ^ (n + 1) + kraftSum (P₂.map Prod.snd)) := by ring
        _ ≤ 1 := hshort
    · have hcut : a * (n + 1) ≤ a * m := Nat.mul_le_mul_left a hnm
      rw [lengthCost_cons]
      calc (a + b) * n + lengthCost P₂ + (a + b) = a * (n + 1) + (b * (n + 1) + lengthCost P₂) := by ring
        _ ≤ a * m + lengthCost P₁ := Nat.add_le_add hcut hcost₂
        _ ≤ lengthCost P := hcost₁

/-! ## Codes without prefixes -/

theorem uniquelyDecodable_of_prefix_eq {S : Set Code} (hne : [] ∉ S) (hprefix : ∀ u ∈ S, ∀ v ∈ S, u <+: v → u = v) :
    InformationTheory.UniquelyDecodable S := by
  intro us vs hus hvs heq
  induction us generalizing vs with
  | nil =>
    cases vs with
    | nil => rfl
    | cons v vs =>
      have hv := hvs v (by simp)
      have : v = [] := by simpa using (List.append_eq_nil_iff.1 heq.symm).1
      exact absurd (this ▸ hv) hne
  | cons u us ih =>
    have hu := hus u (by simp)
    cases vs with
    | nil =>
      have : u = [] := (List.append_eq_nil_iff.1 heq).1
      exact absurd (this ▸ hu) hne
    | cons v vs =>
      have hv := hvs v (by simp)
      rw [List.flatten_cons, List.flatten_cons] at heq
      have huv : u = v := by
        rcases List.prefix_or_prefix_of_prefix (List.prefix_append u us.flatten)
          (heq ▸ List.prefix_append v vs.flatten) with h | h
        · exact hprefix u hu v hv h
        · exact (hprefix v hv u hu h).symm
      subst huv
      rw [ih vs (fun w hw => hus w (List.mem_cons_of_mem _ hw)) (fun w hw => hvs w (List.mem_cons_of_mem _ hw))
        (List.append_cancel_left heq)]

/-- Kraft's inequality for the codes of a table of two symbols or more. -/
theorem kraftSum_le_one_of_prefixFree {freq : Vector Word 256} {c : Symbol → Code} (hc : PrefixFree freq c)
    (hk : 2 ≤ (tableSymbols freq).length) :
    kraftSum (((tableSymbols freq).map fun y => (c y).length : List Nat) : Multiset Nat) ≤ 1 := by
  have hinj : ∀ y ∈ tableSymbols freq, ∀ z ∈ tableSymbols freq, c y <+: c z → y = z := fun y hy z hz h =>
    by_contra fun hne => hc y z (mem_tableSymbols.1 hy) (mem_tableSymbols.1 hz) hne h
  have hnodup := tableSymbols_nodup freq
  have hdecode :
      InformationTheory.UniquelyDecodable (((tableSymbols freq).toFinset.image c : Finset Code) : Set Code) := by
    refine uniquelyDecodable_of_prefix_eq ?_ ?_
    · intro hnil
      obtain ⟨y, hy, hcy⟩ := Finset.mem_image.1 (Finset.mem_coe.1 hnil)
      have hsub : tableSymbols freq ⊆ [y] := fun z hz =>
        List.mem_singleton.2 (hinj y (List.mem_toFinset.1 hy) z hz (hcy ▸ List.nil_prefix)).symm
      have hlen := (hnodup.subperm hsub).length_le
      rw [List.length_singleton] at hlen
      omega
    · intro u hu v hv h
      obtain ⟨y, hy, rfl⟩ := Finset.mem_image.1 (Finset.mem_coe.1 hu)
      obtain ⟨z, hz, rfl⟩ := Finset.mem_image.1 (Finset.mem_coe.1 hv)
      rw [hinj y (List.mem_toFinset.1 hy) z (List.mem_toFinset.1 hz) h]
  calc kraftSum (((tableSymbols freq).map fun y => (c y).length : List Nat) : Multiset Nat)
      = ∑ y ∈ (tableSymbols freq).toFinset, (1 / 2 : ℝ) ^ (c y).length := by
        rw [List.sum_toFinset _ hnodup]
        simp [kraftSum, Function.comp_def]
    _ = ∑ w ∈ (tableSymbols freq).toFinset.image c, (1 / Fintype.card Bool : ℝ) ^ w.length := by
        rw [Finset.sum_image fun y hy z hz h => hinj y (List.mem_toFinset.1 hy) z (List.mem_toFinset.1 hz)
          ((show c y = c z from h) ▸ List.prefix_rfl)]
        simp
    _ ≤ 1 := InformationTheory.kraft_mcmillan_inequality hdecode

end Sys2Proof.Machine
end

section
/-! SUPPORT. The codes of the tree BUILD computes (41_tree_builder.md R121, R125; 42_code_table.md R140). The branches
of a node are its leaves with their paths. Every queue of the merge loop is a forest over the symbols of the table,
and along the loop the cost of the forest grows no faster than any `PrefixFree` code's cost falls. -/

namespace Sys2Proof.Machine

open Sys2Proof.Claims

/-! ## Branches and their cost -/

/-- Every path, with `p` in front. -/
def prefixed (p : Code) (bs : List (Symbol × Code)) : List (Symbol × Code) := bs.map fun e => (e.1, p ++ e.2)

/-- The counts of the leaves, summed. -/
def weightIn (freq : Vector Word 256) (bs : List (Symbol × Code)) : Nat := (bs.map fun e => (entry freq e.1).toNat).sum

/-- FREQ[s] × depth, summed over the leaves (R125). -/
def costIn (freq : Vector Word 256) (bs : List (Symbol × Code)) : Nat :=
  (bs.map fun e => (entry freq e.1).toNat * e.2.length).sum

@[simp] theorem prefixed_nil (bs : List (Symbol × Code)) : prefixed [] bs = bs := by simp [prefixed]

@[simp] theorem prefixed_append (p : Code) (bs cs : List (Symbol × Code)) :
    prefixed p (bs ++ cs) = prefixed p bs ++ prefixed p cs := List.map_append

@[simp] theorem prefixed_prefixed (p q : Code) (bs : List (Symbol × Code)) :
    prefixed p (prefixed q bs) = prefixed (p ++ q) bs := by simp [prefixed]

@[simp] theorem prefixed_map_fst (p : Code) (bs : List (Symbol × Code)) :
    (prefixed p bs).map Prod.fst = bs.map Prod.fst := by simp [prefixed]

@[simp] theorem weightIn_append (freq : Vector Word 256) (bs cs : List (Symbol × Code)) :
    weightIn freq (bs ++ cs) = weightIn freq bs + weightIn freq cs := by simp [weightIn]

@[simp] theorem costIn_append (freq : Vector Word 256) (bs cs : List (Symbol × Code)) :
    costIn freq (bs ++ cs) = costIn freq bs + costIn freq cs := by simp [costIn]

@[simp] theorem weightIn_prefixed (freq : Vector Word 256) (p : Code) (bs : List (Symbol × Code)) :
    weightIn freq (prefixed p bs) = weightIn freq bs := by simp [weightIn, prefixed, Function.comp_def]

/-- Below a path of length `n` every leaf lies `n` deeper. -/
@[simp] theorem costIn_prefixed (freq : Vector Word 256) (p : Code) (bs : List (Symbol × Code)) :
    costIn freq (prefixed p bs) = weightIn freq bs * p.length + costIn freq bs := by
  simp only [costIn, weightIn, prefixed, List.map_map, Function.comp_def, List.length_append, Nat.mul_add,
    List.sum_map_add, List.sum_map_mul_right]

/-! ## The walk -/

/-- Every step down goes to an older node, so the walk ends. -/
def Descending (node : NodeIdx → Node) : Prop :=
  ∀ n, (node n).isLeaf = false → (node n).left.toNat < n.toNat ∧ (node n).right.toNat < n.toNat

theorem walk_eq_prefixed (node : NodeIdx → Node) (d : Nat) (n : NodeIdx) (p : Code) :
    walk node d n p = prefixed p (walk node d n []) := by
  induction d generalizing n p with
  | zero => rfl
  | succ d ih =>
    rw [walk, walk]
    split
    · simp [prefixed]
    · rw [ih _ (p ++ [false]), ih _ (p ++ [true]), ih _ ([] ++ [false]), ih _ ([] ++ [true])]
      simp

/-- Any depth bound above the node's index is enough (log 10). -/
theorem walk_depth_irrel {node : NodeIdx → Node} (hdown : Descending node) {d d' : Nat} {n : NodeIdx} (p : Code)
    (hd : n.toNat < d) (hd' : n.toNat < d') : walk node d n p = walk node d' n p := by
  induction d generalizing d' n p with
  | zero => omega
  | succ d ih =>
    obtain ⟨e, rfl⟩ : ∃ e, d' = e + 1 := ⟨d' - 1, by omega⟩
    rw [walk, walk]
    split
    · rfl
    · next hleaf =>
      have hchild := hdown n (Bool.eq_false_iff.2 hleaf)
      rw [ih (d' := e) _ (by omega) (by omega), ih (d' := e) _ (by omega) (by omega)]

/-- The leaves below node `n`, each with its path from there. -/
def branches (node : NodeIdx → Node) (n : NodeIdx) : List (Symbol × Code) := walk node (n.toNat + 1) n []

theorem branches_of_leaf {node : NodeIdx → Node} {n : NodeIdx} (h : (node n).isLeaf = true) :
    branches node n = [((node n).sym, [])] := by rw [branches, walk, if_pos h]

theorem walk_eq_branches {node : NodeIdx → Node} (hdown : Descending node) {d : Nat} {n : NodeIdx} (p : Code)
    (hd : n.toNat < d) : walk node d n p = prefixed p (branches node n) := by
  rw [walk_eq_prefixed, branches, walk_depth_irrel hdown [] hd (Nat.lt_succ_self _)]

theorem branches_of_internal {node : NodeIdx → Node} (hdown : Descending node) {n : NodeIdx}
    (h : (node n).isLeaf = false) :
    branches node n =
      prefixed [false] (branches node (node n).left) ++ prefixed [true] (branches node (node n).right) := by
  obtain ⟨hl, hr⟩ := hdown n h
  rw [branches, walk, if_neg (by simp [h]), walk_eq_branches hdown _ hl, walk_eq_branches hdown _ hr]
  rfl

theorem arenaNode_ofNat {arena : List Node} {i : Nat} {x : Node} (h : arena[i]? = some x) (hi : i < 512) :
    arenaNode arena (BitVec.ofNat 9 i) = x := by
  rw [arenaNode, BitVec.toNat_ofNat, Nat.mod_eq_of_lt hi, List.getD_eq_getElem?_getD, h]
  rfl

theorem ChildrenOlder.descending {arena : List Node} (h : ChildrenOlder arena) : Descending (arenaNode arena) := by
  intro n hleaf
  rw [arenaNode, List.getD_eq_getElem?_getD] at hleaf ⊢
  rcases hx : arena[n.toNat]? with _ | x
  · simp [hx, leafNode] at hleaf
  · rw [hx] at hleaf
    exact h n.toNat x hx hleaf

/-! ## The forest of a queue -/

/-- The branches of a queue element's node. -/
def branchesAt (tree : List Node) (e : Word × Nat) : List (Symbol × Code) :=
  branches (arenaNode tree) (BitVec.ofNat 9 e.2)

/-- The trees of the queue carry their leaves' counts, and the symbols of the table, each on one leaf. -/
structure ForestOk (freq : Vector Word 256) (tree : List Node) (q : List (Word × Nat)) : Prop where
  weight : ∀ e ∈ q, e.1.toNat = weightIn freq (branchesAt tree e)
  syms : (q.flatMap fun e => (branchesAt tree e).map Prod.fst).Perm (tableSymbols freq)

/-- The forest's own cost, with some lengths given to its trees that meet Kraft's inequality, is at most `bound`. -/
def CostsAtMost (freq : Vector Word 256) (tree : List Node) (bound : Nat) (q : List (Word × Nat)) : Prop :=
  ∃ P : Multiset (Nat × Nat), P.map Prod.fst = ((q.map fun e => e.1.toNat : List Nat) : Multiset Nat) ∧
    kraftSum (P.map Prod.snd) ≤ 1 ∧ (q.map fun e => costIn freq (branchesAt tree e)).sum + lengthCost P ≤ bound

section
variable {freq : Vector Word 256} {arena tree : List Node} {q r : List (Word × Nat)} {a b : Word × Nat} {bound : Nat}

/-- The tree of a new node is the two merged trees, one bit deeper. -/
theorem LeastPair.branchesAt_new (h : LeastPair q a b r) (hq : QueueOk arena q) (htree : ChildrenOlder tree)
    (hprefix : arena ++ [internalNode a b] <+: tree) (w : Word) :
    branchesAt tree (w, arena.length) =
      prefixed [false] (branchesAt tree a) ++ prefixed [true] (branchesAt tree b) := by
  have hroom := (hq.round h).room
  simp only [List.length_append, List.length_cons, List.length_nil] at hroom
  have hnode : arenaNode tree (BitVec.ofNat 9 arena.length) = internalNode a b :=
    arenaNode_ofNat (by rw [getElem?_of_prefix hprefix (by simp), List.getElem?_concat_length]) (by omega)
  rw [branchesAt, branches_of_internal htree.descending (by rw [hnode]; rfl), hnode]
  rfl

theorem ForestOk.round (hf : ForestOk freq tree q) (h : LeastPair q a b r) (hq : QueueOk arena q)
    (htree : ChildrenOlder tree) (hprefix : arena ++ [internalNode a b] <+: tree) :
    ForestOk freq tree (((internalNode a b).weight, arena.length) :: r) := by
  have hnew := h.branchesAt_new hq htree hprefix (internalNode a b).weight
  constructor
  · intro e he
    rcases List.mem_cons.1 he with rfl | he
    · simp [hnew, h.weight_toNat hq, hf.weight a h.mem_left, hf.weight b h.mem_right]
    · exact hf.weight e (h.mem_rest he)
  · have hold := (h.perm.flatMap_right fun e => (branchesAt tree e).map Prod.fst).symm.trans hf.syms
    simpa [hnew] using hold

/-- No element of the queue weighs less than `a` when none is before it. -/
theorem weight_le_of_queueLess_eq_false {e : Word × Nat} (h : queueLess e a = false) : a.1.toNat ≤ e.1.toNat := by
  rw [Bool.eq_false_iff, Ne, queueLess_iff] at h
  omega

theorem CostsAtMost.round (hc : CostsAtMost freq tree bound q) (hf : ForestOk freq tree q) (h : LeastPair q a b r)
    (hq : QueueOk arena q) (htree : ChildrenOlder tree) (hprefix : arena ++ [internalNode a b] <+: tree) :
    CostsAtMost freq tree bound (((internalNode a b).weight, arena.length) :: r) := by
  obtain ⟨P, hfst, hkraft, hcost⟩ := hc
  have hweights : P.map Prod.fst = a.1.toNat ::ₘ b.1.toNat ::ₘ ((r.map fun e => e.1.toNat : List Nat) : Multiset Nat) :=
    hfst.trans (Multiset.coe_eq_coe.2 (h.perm.map _))
  have hleast : ∀ {x : Word × Nat} {l : List (Word × Nat)}, (∀ e ∈ l, queueLess e x = false) →
      ∀ w ∈ ((l.map fun e => e.1.toNat : List Nat) : Multiset Nat), x.1.toNat ≤ w := by
    intro x l hl w hw
    obtain ⟨e, he, rfl⟩ := List.mem_map.1 (Multiset.mem_coe.1 hw)
    exact weight_le_of_queueLess_eq_false (hl e he)
  obtain ⟨P', hfst', hkraft', hcost'⟩ := exists_merged_lengths hweights (hleast h.first) (hleast h.second) hkraft
  refine ⟨P', ?_, hkraft', ?_⟩
  · rw [hfst', List.map_cons, h.weight_toNat hq]
    rfl
  · rw [(h.perm.map _).sum_eq] at hcost
    simp only [List.map_cons, List.sum_cons, h.branchesAt_new hq htree hprefix, costIn_append, costIn_prefixed,
      ← hf.weight a h.mem_left, ← hf.weight b h.mem_right, List.length_singleton] at hcost ⊢
    omega

end

/-! ## The tree of BUILD -/

section
variable {freq : Vector Word 256}

theorem childrenOlder_treeArena (hfits : freqSum freq < 2 ^ 32) : ChildrenOlder (treeArena freq) :=
  (queueOk_buildTree hfits).older

theorem leavesOf_prefix (freq : Vector Word 256) : leavesOf freq <+: treeArena freq := mergeRounds_prefix _ _ _

/-- R125's sum runs over the table alone. -/
theorem weightedLength_eq_sum (c : Symbol → Code) :
    weightedLength freq c = ((tableSymbols freq).map fun y => (entry freq y).toNat * (c y).length).sum :=
  (sum_tableSymbols fun y hy => by simp [hy]).symm

/-- What holds of the queue of leaves and is kept by every round on the way to the finished arena holds at the end. -/
theorem buildTree_invariant (hfits : freqSum freq < 2 ^ 32) {J : List (Word × Nat) → Prop}
    (hround : ∀ arena q a b r, QueueOk arena q → LeastPair q a b r → arena ++ [internalNode a b] <+: treeArena freq →
      J q → J (((internalNode a b).weight, arena.length) :: r))
    (hleaves : J (leafQueue (leavesOf freq))) : J (buildTree freq).2 := by
  have hinv := mergeRounds_invariant (I := fun arena q => QueueOk arena q ∧ (arena <+: treeArena freq → J q))
    (fun arena q a b r ⟨hq, hJ⟩ hpair => ⟨hq.round hpair, fun hprefix =>
      hround arena q a b r hq hpair hprefix (hJ ((List.prefix_append _ _).trans hprefix))⟩)
    (leavesOf freq).length ⟨queueOk_leaves hfits, fun _ => hleaves⟩
  exact hinv.2 List.prefix_rfl

/-- The queue of leaves: one tree per symbol of the table, a leaf at depth 0. -/
theorem leafQueue_branches (freq : Vector Word 256) :
    (leafQueue (leavesOf freq)).map (fun e => (e.1, branchesAt (treeArena freq) e)) =
      (tableSymbols freq).map (fun y => (entry freq y, [(y, [])])) := by
  conv_rhs => rw [← List.zipIdx_map_fst 0 (tableSymbols freq), List.map_map]
  rw [leafQueue, leavesOf_eq_map, List.zipIdx_map, List.map_map, List.map_map]
  refine List.map_congr_left fun ⟨y, i⟩ hy => ?_
  have hleaf : (leavesOf freq)[i]? = some (leafNode y (entry freq y)) := by
    rw [leavesOf_eq_map, List.getElem?_map, List.mem_zipIdx_iff_getElem?.1 hy]
    rfl
  have hi : i < (leavesOf freq).length := (List.getElem?_eq_some_iff.1 hleaf).1
  have hle := leavesOf_length_le freq
  have hnode : arenaNode (treeArena freq) (BitVec.ofNat 9 i) = leafNode y (entry freq y) :=
    arenaNode_ofNat (by rw [getElem?_of_prefix (leavesOf_prefix freq) hi, hleaf]) (by omega)
  have hbranches : branchesAt (treeArena freq) (entry freq y, i) = [(y, [])] := by
    rw [branchesAt, branches_of_leaf (by rw [hnode]; rfl), hnode]
    rfl
  exact congrArg (Prod.mk _) hbranches

theorem forestOk_leaves (freq : Vector Word 256) : ForestOk freq (treeArena freq) (leafQueue (leavesOf freq)) := by
  constructor
  · intro e he
    have hmem : (e.1, branchesAt (treeArena freq) e) ∈ (tableSymbols freq).map (fun y => (entry freq y, [(y, [])])) :=
      leafQueue_branches freq ▸ List.mem_map_of_mem he
    obtain ⟨y, -, hy⟩ := List.mem_map.1 hmem
    obtain ⟨hw, hb⟩ := Prod.mk.inj hy
    simp [← hw, ← hb, weightIn]
  · have hsyms := congrArg (List.flatMap fun e : Word × List (Symbol × Code) => e.2.map Prod.fst)
      (leafQueue_branches freq)
    rw [List.flatMap_map, List.flatMap_map] at hsyms
    rw [hsyms]
    simp

theorem forestOk_buildTree (hfits : freqSum freq < 2 ^ 32) :
    ForestOk freq (treeArena freq) (buildTree freq).2 :=
  buildTree_invariant hfits
    (fun _ _ _ _ _ hq hpair hprefix hf => hf.round hpair hq (childrenOlder_treeArena hfits) hprefix)
    (forestOk_leaves freq)

/-- The count and the code length of every symbol of the table. -/
def codeLengths (freq : Vector Word 256) (c : Symbol → Code) : Multiset (Nat × Nat) :=
  ((tableSymbols freq).map fun y => ((entry freq y).toNat, (c y).length) : List (Nat × Nat))

theorem lengthCost_codeLengths (c : Symbol → Code) : lengthCost (codeLengths freq c) = weightedLength freq c := by
  simp [weightedLength_eq_sum, lengthCost, codeLengths, Function.comp_def]

/-- The leaves with the code lengths of a `PrefixFree` assignment cost what the assignment costs. -/
theorem costsAtMost_leaves {c : Symbol → Code} (hc : PrefixFree freq c) (hk : 2 ≤ (tableSymbols freq).length) :
    CostsAtMost freq (treeArena freq) (weightedLength freq c) (leafQueue (leavesOf freq)) := by
  refine ⟨codeLengths freq c, ?_, ?_, ?_⟩
  · have hweights := congrArg (List.map fun e : Word × List (Symbol × Code) => e.1.toNat) (leafQueue_branches freq)
    simp only [List.map_map, Function.comp_def] at hweights
    simp [hweights, codeLengths, Function.comp_def]
  · simpa [codeLengths, Function.comp_def] using kraftSum_le_one_of_prefixFree hc hk
  · have hcosts := congrArg (List.map fun e : Word × List (Symbol × Code) => costIn freq e.2) (leafQueue_branches freq)
    simp only [List.map_map, Function.comp_def] at hcosts
    rw [hcosts, lengthCost_codeLengths]
    simp [costIn]

theorem costsAtMost_buildTree (hfits : freqSum freq < 2 ^ 32) {c : Symbol → Code} (hc : PrefixFree freq c)
    (hk : 2 ≤ (tableSymbols freq).length) :
    CostsAtMost freq (treeArena freq) (weightedLength freq c) (buildTree freq).2 := by
  have hinv := buildTree_invariant hfits
    (J := fun q => ForestOk freq (treeArena freq) q ∧ CostsAtMost freq (treeArena freq) (weightedLength freq c) q)
    (fun _ _ _ _ _ hq hpair hprefix ⟨hf, hcost⟩ =>
      ⟨hf.round hpair hq (childrenOlder_treeArena hfits) hprefix,
        hcost.round hf hpair hq (childrenOlder_treeArena hfits) hprefix⟩)
    ⟨forestOk_leaves freq, costsAtMost_leaves hc hk⟩
  exact hinv.2

/-! ## The codes -/

/-- The leaves of BUILD's tree, each with its path from the root. -/
def rootBranches (freq : Vector Word 256) : List (Symbol × Code) :=
  branches (arenaNode (treeArena freq)) (BitVec.ofNat 9 ((treeArena freq).length - 1))

theorem leavesOf_ne_nil (hk : distinctCount freq ≠ 0) : leavesOf freq ≠ [] := fun h =>
  hk (by rw [← leavesOf_length, h]; rfl)

/-- Every symbol of the table has exactly one leaf. -/
theorem rootBranches_syms (hfits : freqSum freq < 2 ^ 32) (hk : distinctCount freq ≠ 0) :
    ((rootBranches freq).map Prod.fst).Perm (tableSymbols freq) := by
  obtain ⟨w, hw⟩ := buildTree_queue hfits (leavesOf_ne_nil hk)
  have hsyms := (forestOk_buildTree hfits).syms
  rw [hw, List.flatMap_singleton] at hsyms
  exact hsyms

/-- From a tree of two leaves or more GEN assigns each leaf's symbol its path (R140). -/
theorem codeAssignments_treeArena (hfits : freqSum freq < 2 ^ 32) (hk : 2 ≤ distinctCount freq) :
    codeAssignments (arenaNode (treeArena freq)) (treeRoot freq) = rootBranches freq := by
  have hlen := treeArena_length freq
  have hle := leavesOf_length_le freq
  rw [leavesOf_length] at hlen hle
  have hindex : 2 * distinctCount freq - 2 = (treeArena freq).length - 1 := by omega
  have hroot : (BitVec.ofNat 9 ((treeArena freq).length - 1)).toNat < Config.nodeCap := by
    rw [BitVec.toNat_ofNat, Config.nodeCap]
    omega
  rw [treeRoot_eq hfits, if_neg (by omega), hindex, codeAssignments]
  split
  · next hleaf =>
    have hsyms := (rootBranches_syms hfits (by omega)).length_eq
    rw [tableSymbols_length, rootBranches, branches_of_leaf hleaf, List.length_map, List.length_singleton] at hsyms
    omega
  · rw [walk_eq_branches (childrenOlder_treeArena hfits).descending [] hroot, prefixed_nil, rootBranches]

theorem lookup_of_mem {as : List (Symbol × Code)} (hnodup : (as.map Prod.fst).Nodup) {e : Symbol × Code}
    (he : e ∈ as) : as.lookup e.1 = some e.2 := by
  induction as with
  | nil => cases he
  | cons a as ih =>
    rw [List.map_cons, List.nodup_cons] at hnodup
    obtain ⟨hnot, hnodup⟩ := hnodup
    rcases List.mem_cons.1 he with rfl | he
    · exact List.lookup_cons_self
    · have hne : e.1 ≠ a.1 := fun h => hnot (h ▸ List.mem_map_of_mem he)
      rw [List.lookup_cons, beq_false_of_ne hne]
      exact ih hnodup he

/-- With one assignment per symbol the table holds every assignment. -/
theorem entry_codeTableOf {as : List (Symbol × Code)} (hnodup : (as.map Prod.fst).Nodup) {e : Symbol × Code}
    (he : e ∈ as) : entry (codeTableOf as) e.1 = e.2 := by
  have hreverse : (as.reverse.map Prod.fst).Nodup := by rwa [List.map_reverse, List.nodup_reverse]
  rw [codeTableOf, entry_tabulate, lookup_of_mem hreverse (List.mem_reverse.2 he)]
  rfl

theorem entry_codesOf (hfits : freqSum freq < 2 ^ 32) (hk : 2 ≤ distinctCount freq) {e : Symbol × Code}
    (he : e ∈ rootBranches freq) : entry (codesOf freq) e.1 = e.2 := by
  rw [codesOf, codeAssignments_treeArena hfits hk]
  exact entry_codeTableOf ((rootBranches_syms hfits (by omega)).nodup_iff.2 (tableSymbols_nodup freq)) he

/-- The codes' weighted length is the cost of the tree (R125). -/
theorem weightedLength_codesOf (hfits : freqSum freq < 2 ^ 32) (hk : 2 ≤ distinctCount freq) :
    weightedLength freq (entry (codesOf freq)) = costIn freq (rootBranches freq) := by
  rw [weightedLength_eq_sum, ← ((rootBranches_syms hfits (by omega)).map _).sum_eq, List.map_map, costIn]
  exact congrArg List.sum (List.map_congr_left fun e he => by
    rw [Function.comp_apply, entry_codesOf hfits hk he])

/-- The codes of BUILD's tree cost no more than any `PrefixFree` assignment (R125). -/
theorem weightedLength_codesOf_le (hfits : freqSum freq < 2 ^ 32) (hk : 2 ≤ distinctCount freq) {c : Symbol → Code}
    (hc : PrefixFree freq c) : weightedLength freq (entry (codesOf freq)) ≤ weightedLength freq c := by
  obtain ⟨w, hw⟩ := buildTree_queue hfits (leavesOf_ne_nil (by omega))
  obtain ⟨P, -, -, hcost⟩ := costsAtMost_buildTree hfits hc (tableSymbols_length freq ▸ hk)
  rw [hw, List.map_singleton, List.sum_singleton] at hcost
  rw [weightedLength_codesOf hfits hk]
  exact (Nat.le_add_right _ _).trans hcost

end

theorem State.HoldsCodes.codeAt {s : State} (h : s.HoldsCodes) : s.codeAt = entry (codesOf s.freq) := by
  funext y
  rw [State.codeAt, h.1]

/-- Settles O40: each round of BUILD's loop keeps the cost of its forest, with lengths left over from any `PrefixFree`
assignment, within that assignment's cost. -/
theorem codesAreOptimal : Obligations.CodesAreOptimal := by
  unfold Obligations.CodesAreOptimal
  intro s c hok hcodes hvalid hk hc
  rw [State.HoldsCodes.codeAt (hcodes hvalid).2]
  exact weightedLength_codesOf_le hok.fits (hok.2 ▸ hk) hc

end Sys2Proof.Machine
end

section
/-! SUPPORT. GEN outside its walk (42_code_table.md R140, R145): its two outcomes, the greatest code length, and the
tables that no assignment and one assignment leave. -/

namespace Sys2Proof.Machine

/-! ## The outcomes of GEN -/

theorem exec_gen (s : State) : exec .gen s = (genBody s).finish := rfl

theorem exec_gen_of_no_tree {s : State} (h : s.treeValid = false) :
    exec .gen s = .next (s.raise .notReady 0#32) := by
  obtain ⟨-, hbody⟩ | ⟨hvalid, -⟩ := genBody_cases s
  · rw [exec_gen, hbody, Body.finish_raised]
  · simp [h] at hvalid

theorem exec_gen_of_tree {s : State} (h : s.treeValid = true) {as : List (Symbol × Code)}
    (has : codeAssignments s.nodeAt s.root = as) :
    exec .gen s =
      .next (s.setCodes (codeTableOf as) (BitVec.ofNat 9 (longestCode (codeTableOf as)))).complete := by
  obtain ⟨hvalid, -⟩ | ⟨-, table, htable, hbody⟩ := genBody_cases s
  · simp [h] at hvalid
  · rw [exec_gen, hbody, Body.finish_ok, htable, has]

/-! ## The greatest code length -/

theorem length_entry_le_longestCode (t : CodeTable) (y : Symbol) : (entry t y).length ≤ longestCode t := by
  rw [longestCode, List.foldl_eq_foldr]
  exact List.le_max_of_le (List.mem_map_of_mem (mem_symbols y)) le_rfl

theorem longestCode_le_iff {t : CodeTable} {n : Nat} : longestCode t ≤ n ↔ ∀ y, (entry t y).length ≤ n := by
  refine ⟨fun h y => (length_entry_le_longestCode t y).trans h, fun h => ?_⟩
  rw [longestCode, List.foldl_eq_foldr]
  refine List.max_le_of_forall_le _ _ fun l hl => ?_
  obtain ⟨y, -, rfl⟩ := List.mem_map.1 hl
  exact h y

/-! ## The tables of the smallest trees -/

@[simp] theorem codeAssignments_none (node : NodeIdx → Node) : codeAssignments node none = [] := rfl

theorem codeAssignments_of_leaf {node : NodeIdx → Node} {r : NodeIdx} (h : (node r).isLeaf = true) :
    codeAssignments node (some r) = [((node r).sym, [false])] := if_pos h

@[simp] theorem entry_codeTableOf_nil (y : Symbol) : entry (codeTableOf []) y = [] := by simp [codeTableOf]

@[simp] theorem entry_codeTableOf_singleton (x y : Symbol) (c : Code) :
    entry (codeTableOf [(x, c)]) y = if y = x then c else [] := by
  rw [codeTableOf, entry_tabulate, List.reverse_singleton]
  by_cases h : y = x
  · rw [h, List.lookup_cons_self, if_pos rfl, Option.getD_some]
  · rw [List.lookup_cons, beq_false_of_ne h, if_neg h]
    rfl

theorem longestCode_codeTableOf_nil : longestCode (codeTableOf []) = 0 :=
  Nat.le_zero.1 (longestCode_le_iff.2 fun y => by simp)

theorem longestCode_codeTableOf_singleton (x : Symbol) (c : Code) :
    longestCode (codeTableOf [(x, c)]) = c.length := by
  refine Nat.le_antisymm (longestCode_le_iff.2 fun y => ?_) ?_
  · rw [entry_codeTableOf_singleton]
    split <;> simp
  · simpa using length_entry_le_longestCode (codeTableOf [(x, c)]) x

/-! ## The obligation -/

/-- Settles O36: GEN assigns nothing from the empty tree and the code 0 to the symbol of a lone leaf. -/
theorem genSmallTrees : Obligations.GenSmallTrees := by
  unfold Obligations.GenSmallTrees
  refine fun s => ⟨exec_gen_of_no_tree, fun hvalid hroot => ?_, fun r hvalid hroot hleaf => ?_⟩
  · have hnone : codeAssignments s.nodeAt s.root = [] := by rw [hroot, codeAssignments_none]
    refine ⟨codeTableOf [], ?_, entry_codeTableOf_nil⟩
    rw [exec_gen_of_tree hvalid hnone, longestCode_codeTableOf_nil]
    rfl
  · have hone : codeAssignments s.nodeAt s.root = [((s.nodeAt r).sym, [false])] := by
      rw [hroot, codeAssignments_of_leaf hleaf]
    refine ⟨codeTableOf [((s.nodeAt r).sym, [false])], ?_, fun y => entry_codeTableOf_singleton _ y _⟩
    rw [exec_gen_of_tree hvalid hone, longestCode_codeTableOf_singleton]
    rfl

end Sys2Proof.Machine
end

section
/-! SUPPORT. MAP (43_encoder.md R160 to R164): its loop past a prefix that fits, its outcomes, and the words it leaves
in BITS. -/

namespace Sys2Proof.Machine

/-! ## The loop -/

section
variable {code : Symbol → Code} {cap : Nat}

theorem mapSymbols_cons_of_fits {y : Symbol} {rest : List Symbol} {i pos : Nat} (hne : code y ≠ [])
    (hfits : pos + (code y).length ≤ cap) :
    mapSymbols code cap (y :: rest) i pos =
      (mapSymbols code cap rest (i + 1) (pos + (code y).length)).map (code y ++ ·) := by
  rw [mapSymbols, if_neg (mt List.length_eq_zero_iff.1 hne), if_neg (Nat.not_lt.2 hfits)]
  cases mapSymbols code cap rest (i + 1) (pos + (code y).length) <;> rfl

theorem mapSymbols_cons_of_no_code {y : Symbol} {rest : List Symbol} {i pos : Nat} (hnil : code y = []) :
    mapSymbols code cap (y :: rest) i pos = .error (.unknownSymbol, i) := by
  rw [mapSymbols, if_pos (List.length_eq_zero_iff.2 hnil)]

theorem mapSymbols_cons_of_over {y : Symbol} {rest : List Symbol} {i pos : Nat} (hne : code y ≠ [])
    (hover : cap < pos + (code y).length) :
    mapSymbols code cap (y :: rest) i pos = .error (.capacityExceeded, i) := by
  rw [mapSymbols, if_neg (mt List.length_eq_zero_iff.1 hne), if_pos hover]

/-- The loop runs past every prefix that has codes and fits, and its bits come first. -/
theorem mapSymbols_append {pre : List Symbol} (rest : List Symbol) {i pos : Nat} (hne : ∀ z ∈ pre, code z ≠ [])
    (hfits : pos + (pre.flatMap code).length ≤ cap) :
    mapSymbols code cap (pre ++ rest) i pos =
      (mapSymbols code cap rest (i + pre.length) (pos + (pre.flatMap code).length)).map (pre.flatMap code ++ ·) := by
  induction pre generalizing i pos with
  | nil => cases h : mapSymbols code cap rest i pos <;> simp [h, Except.map]
  | cons y pre ih =>
    obtain ⟨hy, hpre⟩ := List.forall_mem_cons.1 hne
    rw [List.flatMap_cons, List.length_append] at hfits
    rw [List.cons_append, mapSymbols_cons_of_fits hy (by omega), ih hpre (by omega), List.flatMap_cons,
      List.length_append, List.length_cons, Nat.add_assoc i, Nat.add_comm 1, Nat.add_assoc pos]
    cases mapSymbols code cap rest (i + (pre.length + 1)) (pos + ((code y).length + (pre.flatMap code).length)) <;>
      simp [Except.map]

theorem mapSymbols_of_fits {syms : List Symbol} (hne : ∀ z ∈ syms, code z ≠ [])
    (hfits : (syms.flatMap code).length ≤ cap) : mapSymbols code cap syms 0 0 = .ok (syms.flatMap code) := by
  have h := mapSymbols_append (i := 0) (pos := 0) [] hne ((Nat.zero_add _).trans_le hfits)
  rwa [List.append_nil, mapSymbols, Except.map, List.append_nil] at h

/-- An error at the symbol after a prefix that has codes and fits is the error of the whole loop. -/
theorem mapSymbols_error_at {syms : List Symbol} {i : Nat} {y : Symbol} {e : ErrorKind × Nat} (hy : syms[i]? = some y)
    (hne : ∀ z ∈ syms.take i, code z ≠ []) (hfits : ((syms.take i).flatMap code).length ≤ cap)
    (herr : mapSymbols code cap (y :: syms.drop (i + 1)) i ((syms.take i).flatMap code).length = .error e) :
    mapSymbols code cap syms 0 0 = .error e := by
  obtain ⟨hi, rfl⟩ := List.getElem?_eq_some_iff.1 hy
  have h := mapSymbols_append (i := 0) (pos := 0) (syms.drop i) hne ((Nat.zero_add _).trans_le hfits)
  rwa [List.take_append_drop, List.length_take_of_le hi.le, Nat.zero_add, Nat.zero_add, List.drop_eq_getElem_cons hi,
    herr] at h

theorem length_flatMap_take_succ {syms : List Symbol} {i : Nat} {y : Symbol} (hy : syms[i]? = some y) :
    ((syms.take (i + 1)).flatMap code).length = ((syms.take i).flatMap code).length + (code y).length := by
  simp [List.take_add_one, hy]

end

/-! ## The outcomes of MAP -/

theorem exec_map (s : State) : exec .map s = (mapBody s).finish := rfl

theorem mapBody_of_no_codes {s : State} (h : s.codesValid = false) :
    mapBody s = .raised s.dropStream .notReady 0#32 := by
  rw [mapBody, if_neg (Bool.eq_false_iff.1 h)]

theorem mapBody_of_ilen_over {s : State} (hvalid : s.codesValid = true) (hover : s.params.symCap < s.ilen.toNat) :
    mapBody s = .raised s.dropStream .capacityExceeded s.ilen := by
  rw [mapBody, if_pos hvalid, if_pos hover]

section
variable {s : State} (hvalid : s.codesValid = true) (hilen : s.ilen.toNat ≤ s.params.symCap)
include hvalid hilen

theorem mapBody_of_error {e : ErrorKind × Nat}
    (h : mapSymbols s.codeAt s.params.bitCap s.inputSymbols 0 0 = .error e) :
    mapBody s = .raised s.voidStream e.1 (BitVec.ofNat 32 e.2) := by
  rw [mapBody, if_pos hvalid, if_neg (Nat.not_lt.2 hilen), h]

theorem mapBody_of_ok {c : Code} (h : mapSymbols s.codeAt s.params.bitCap s.inputSymbols 0 0 = .ok c) :
    mapBody s = .ok (s.setStream (packWords c) (BitVec.ofNat 32 c.length)) := by
  rw [mapBody, if_pos hvalid, if_neg (Nat.not_lt.2 hilen), h]

end

/-! ## The words MAP writes -/

/-- Bit `31 − b` of word `w` is element `32·w + b` of the sequence, and 0 past its end (R160). -/
theorem packWord_lsb (bits : Code) (w : Nat) {b : Nat} (hb : b < 32) :
    (packWord bits w).getLsbD (31 - b) = (bits[32 * w + b]?).getD false := by
  have h := packWord_msb bits w b hb
  rwa [BitVec.getMsbD, decide_eq_true hb, Bool.true_and, List.getD_eq_getElem?_getD,
    show 32 - 1 - b = 31 - b from rfl] at h

theorem read_writeFrom_packWords_of_lt (m : Memory Word) {c : Code} {w : Nat} (hw : w < (c.length + 31) / 32) :
    Memory.read (Memory.writeFrom m 0 (packWords c)) w = some (packWord c w) := by
  rw [Memory.read_writeFrom, packWords_length, if_pos (by omega), Nat.sub_zero, packWords_get c w hw]

theorem read_writeFrom_packWords_of_ge (m : Memory Word) {c : Code} {w : Nat} (hw : (c.length + 31) / 32 ≤ w) :
    Memory.read (Memory.writeFrom m 0 (packWords c)) w = Memory.read m w := by
  rw [Memory.read_writeFrom, packWords_length, if_neg (by omega)]

/-- R6 keeps BIT_CAP, and so the length of a stream that fits, below 2^32. -/
theorem Params.legal_bitCap_lt {p : Params} (h : p.legal = true) : p.bitCap < 2 ^ 32 := by
  simp only [Params.legal, Bool.and_eq_true, decide_eq_true_eq] at h
  omega

/-! ## The obligation -/

/-- Settles O41: the loop of R160 runs past the prefix before index `i`, so its answer is decided at `i`; when no
index raises, its bits are the joined codes. -/
theorem mapPacksTheCodes : Obligations.MapPacksTheCodes := by
  unfold Obligations.MapPacksTheCodes
  intro s hlegal
  rw [exec_map]
  refine ⟨fun hno => congrArg Body.finish (mapBody_of_no_codes hno),
    fun hvalid hover => congrArg Body.finish (mapBody_of_ilen_over hvalid hover), ?_, ?_⟩
  · intro hvalid hilen i y hy hne hfits
    have raises {k : ErrorKind}
        (h : mapSymbols s.codeAt s.params.bitCap (y :: s.inputSymbols.drop (i + 1)) i
          ((s.inputSymbols.take i).flatMap s.codeAt).length = .error (k, i)) :
        mapBody s = .raised s.voidStream k (BitVec.ofNat 32 i) :=
      mapBody_of_error hvalid hilen (mapSymbols_error_at hy hne hfits h)
    refine ⟨fun hnil => congrArg Body.finish (raises (mapSymbols_cons_of_no_code hnil)), fun hcode hover => ?_⟩
    rw [length_flatMap_take_succ hy] at hover
    exact congrArg Body.finish (raises (mapSymbols_cons_of_over hcode hover))
  · intro hvalid hilen hne hfits
    have hbody := mapBody_of_ok hvalid hilen (mapSymbols_of_fits hne hfits)
    have hlen : (BitVec.ofNat 32 (s.inputSymbols.flatMap s.codeAt).length).toNat =
        (s.inputSymbols.flatMap s.codeAt).length :=
      Nat.mod_eq_of_lt (hfits.trans_lt (Params.legal_bitCap_lt hlegal))
    refine ⟨_, _, congrArg Body.finish hbody, hlen, ?_, ?_⟩
    all_goals rw [State.setStream_blen, hlen]
    · exact fun w hw => ⟨_, read_writeFrom_packWords_of_lt s.bits hw, fun b hb => packWord_lsb _ w hb⟩
    · exact fun w hw => read_writeFrom_packWords_of_ge s.bits hw

end Sys2Proof.Machine
end

section
/-! SUPPORT. PARSE with a one-symbol table (44_decoder.md R180, R183): the tree and the code table of one symbol, the
symbol PARSE finds in that table, and the two outcomes of its checks there. -/

namespace Sys2Proof.Machine

/-! ## The code table of one symbol -/

section
variable {freq : Vector Word 256} {y : Symbol}

theorem tableSymbols_eq_singleton (hk : distinctCount freq = 1) (hy : entry freq y ≠ 0#32) :
    tableSymbols freq = [y] := by
  obtain ⟨x, hx⟩ := List.length_eq_one_iff.1 ((tableSymbols_length freq).trans hk)
  have hmem : y ∈ [x] := hx ▸ mem_tableSymbols.2 hy
  rw [hx, List.mem_singleton.1 hmem]

/-- One leaf is the whole tree: the merge loop has no round to run (R120). -/
theorem buildTree_of_tableSymbols_singleton (h : tableSymbols freq = [y]) :
    buildTree freq = ([leafNode y (entry freq y)], [(entry freq y, 0)]) := by
  rw [buildTree, leavesOf_eq_map, h]
  rfl

/-- R145: the only code is 0, the symbol's. -/
theorem codesOf_of_tableSymbols_singleton (h : tableSymbols freq = [y]) :
    codesOf freq = codeTableOf [(y, [false])] := by
  rw [codesOf, treeArena, treeRoot, buildTree_of_tableSymbols_singleton h]
  exact congrArg codeTableOf (codeAssignments_of_leaf rfl)

end

/-- Where one symbol alone has a code, it is the symbol PARSE writes (R180). -/
theorem State.soleSymbol_of_codeAt {s : State} {y : Symbol} (h : ∀ z, s.codeAt z ≠ [] ↔ z = y) :
    s.soleSymbol = y := by
  have hlen : ∀ z, ((s.codeAt z).length != 0) = true ↔ z = y := fun z => by simp [← h z]
  rw [State.soleSymbol]
  cases hfind : symbols.find? (fun z => (s.codeAt z).length != 0) with
  | none => exact absurd ((hlen y).2 rfl) (List.find?_eq_none.1 hfind y (mem_symbols y))
  | some z =>
    have hfound := List.find?_some hfind
    exact (hlen z).1 hfound

theorem State.FreqOk.soleSymbol {s : State} (hok : s.FreqOk) (hcodes : s.HoldsCodes) (hk : s.ndistinct = 1#9)
    {y : Symbol} (hy : entry s.freq y ≠ 0#32) : s.soleSymbol = y := by
  have hone : distinctCount s.freq = 1 := by rw [← hok.2, hk]; rfl
  have htable := codesOf_of_tableSymbols_singleton (tableSymbols_eq_singleton hone hy)
  refine State.soleSymbol_of_codeAt fun z => ?_
  rw [hcodes.codeAt, htable, entry_codeTableOf_singleton]
  split <;> simp [*]

/-! ## The outcomes of PARSE -/

theorem exec_parse (s : State) : exec .parse s = (parseBody s).finish := rfl

theorem parseBody_of_blen_over {s : State} (hvalid : s.codesValid = true) (hover : s.params.bitCap < s.blen.toNat) :
    parseBody s = .raised s.dropOutput .capacityExceeded s.blen := by
  rw [parseBody, if_pos hvalid, if_pos hover]

/-- The one-symbol branch does not mention STREAM. -/
theorem parseBody_of_one_symbol {s : State} (hvalid : s.codesValid = true) (hblen : s.blen.toNat ≤ s.params.bitCap)
    (htotal : s.total.toNat ≤ s.params.symCap) (hk : s.ndistinct = 1#9) :
    parseBody s = .ok (s.setOutput (List.replicate s.total.toNat s.soleSymbol)) := by
  have hne : s.ndistinct ≠ 0#9 := by rw [hk]; decide
  rw [parseBody, if_pos hvalid, if_neg (Nat.not_lt.2 hblen), if_neg hne, if_neg (Nat.not_lt.2 htotal), if_pos hk]

/-! ## Copies of one value in an array -/

theorem Memory.read_writeFrom_replicate_of_lt {α : Type} (m : Memory α) (v : α) {n i : Nat} (hi : i < n) :
    Memory.read (Memory.writeFrom m 0 (List.replicate n v)) i = some v := by
  rw [Memory.read_writeFrom, List.length_replicate, if_pos (by omega), Nat.sub_zero, List.getElem?_replicate_of_lt hi]

theorem Memory.read_writeFrom_replicate_of_ge {α : Type} (m : Memory α) (v : α) {n i : Nat} (hi : n ≤ i) :
    Memory.read (Memory.writeFrom m 0 (List.replicate n v)) i = Memory.read m i := by
  rw [Memory.read_writeFrom, List.length_replicate, if_neg (by omega)]

/-- A word's number of copies, as a length, is the word again. -/
theorem State.setOutput_replicate (s : State) (n : Word) (y : Symbol) :
    s.setOutput (List.replicate n.toNat y) =
      { s with symOut := Memory.writeFrom s.symOut 0 (List.replicate n.toNat y), olen := n } := by
  rw [State.setOutput, List.length_replicate, BitVec.ofNat_toNat, BitVec.setWidth_eq]

/-! ## The obligation -/

/-- Settles O43: PARSE takes its one-symbol branch, and the one symbol with a code is the one with a count. -/
theorem parseSingleSymbolIgnoresBits : Obligations.ParseSingleSymbolIgnoresBits := by
  unfold Obligations.ParseSingleSymbolIgnoresBits
  intro s y hok hcodes hvalid hk hy htotal
  rw [exec_parse]
  refine ⟨fun hblen => ?_, fun hover => congrArg Body.finish (parseBody_of_blen_over hvalid hover)⟩
  have hbody := parseBody_of_one_symbol hvalid hblen htotal hk
  rw [hok.soleSymbol (hcodes hvalid).2 hk hy, State.setOutput_replicate] at hbody
  exact ⟨_, congrArg Body.finish hbody, fun i hi => Memory.read_writeFrom_replicate_of_lt s.symOut y hi,
    fun i hi => Memory.read_writeFrom_replicate_of_ge s.symOut y hi⟩

end Sys2Proof.Machine
end

section
/-! SUPPORT. The command lifecycle at the bus (45_control.md R200, 70_reset_and_hazards.md R254) and the two control
commands NOP and CLEAR (R203, R205). -/

namespace Sys2Proof.Machine

/-! ## Acceptance -/

theorem State.writeLoc_cmd_of_idle {s : State} (v : Word) (h : s.pending = none) :
    s.writeLoc (.reg .cmd) v = s.accept v := by
  simp only [State.writeLoc, s.busy_of_none h, Bool.false_eq_true, if_false]

theorem State.writeLoc_cmd_of_busy {s : State} (v : Word) (h : s.pending ≠ none) :
    s.writeLoc (.reg .cmd) v = { s with overrun := true } := by
  have hbusy : s.busy = true := s.busy_iff.2 (Option.ne_none_iff_exists'.1 h)
  simp only [State.writeLoc, hbusy, if_true]

/-! ## NOP and CLEAR -/

theorem exec_nop (s : State) : exec .nop s = .next s.complete := rfl

theorem exec_clear (s : State) : exec .clear s = .next s.clearDerived.complete := rfl

/-- CLEAR leaves no symbol with a count, whatever the table held (R205). -/
@[simp] theorem State.entry_clearDerived_freq (s : State) (y : Symbol) : entry s.clearDerived.freq y = 0#32 :=
  entry_replicate 0#32 y

/-! ## The obligations -/

/-- Settles O20, by the two cases of PENDING: a CMD write is acceptance while it is empty and only the overrun flag
while it is full; no case looks at the word. -/
theorem commandAcceptance : Obligations.CommandAcceptance := by
  unfold Obligations.CommandAcceptance
  intro s v
  have hwrite : s.busWrite 0x0000C#20 v = s.writeLoc (.reg .cmd) v := s.busWrite_reg .cmd v
  rw [hwrite]
  exact ⟨State.writeLoc_cmd_of_idle v, State.writeLoc_cmd_of_busy v⟩

/-- Settles O28: NOP's body is the state itself, so the command is its completion alone. -/
theorem nopOnlyCompletes : Obligations.NopOnlyCompletes := by
  unfold Obligations.NopOnlyCompletes
  exact exec_nop

/-- Settles O29: the table CLEAR writes is the one of `State.clearDerived`, and completion adds PENDING and DONE. -/
theorem clearDiscardsDerivedState : Obligations.ClearDiscardsDerivedState := by
  unfold Obligations.ClearDiscardsDerivedState
  intro s
  exact ⟨s.clearDerived.freq, exec_clear s, s.entry_clearDerived_freq⟩

end Sys2Proof.Machine
end

section
/-! SUPPORT. The step of the machine (45_control.md R201; log 2): the decoder against the encoder, what the engine's
turn runs, and what a step with no turn left does. -/

namespace Sys2Proof.Machine

/-! ## The step and the agenda -/

theorem step_of_agenda_nil {s : State} (h : s.agenda = []) : step s = quietStep s := by
  rw [step, h]

theorem step_of_agenda_cons {s : State} {turn : Turn} {rest : List Turn} (h : s.agenda = turn :: rest) :
    step s = takeTurn turn (s.tick.withAgenda rest) := by
  rw [step, h]

@[simp] theorem takeTurn_engine (s : State) : takeTurn .engine s = engineStep s := rfl

@[simp] theorem takeTurn_host (s : State) (a : Access) : takeTurn (.host a) s = hostStep a s := rfl

theorem quietStep_of_idle {s : State} (h : s.pending = none) : quietStep s = .next s := by
  rw [quietStep, s.busy_of_none h]
  rfl

theorem quietStep_of_pending {s : State} {w : Word} (h : s.pending = some w) : quietStep s = engineStep s.tick := by
  rw [quietStep, s.busy_of_some w h, if_pos rfl]

theorem engineStep_of_idle {s : State} (h : s.pending = none) : engineStep s = .next s := by
  rw [engineStep, h]

/-- 32 bits are the whole word of a table row. -/
theorem tableWord_toNat (w : Word) : tableWord 32 w.toNat = w := by
  rw [tableWord, Nat.mod_eq_of_lt w.isLt, BitVec.ofNat_toNat, BitVec.setWidth_eq]

/-! ## The obligations -/

/-- Settles O1, from the two directions of the decoder against the encoder. -/
theorem decodesExactlyTheEncodedWords : Obligations.DecodesExactlyTheEncodedWords := by
  unfold Obligations.DecodesExactlyTheEncodedWords
  exact fun i w => ⟨eq_encode_of_decode, fun h => h ▸ decode_encode i⟩

/-- Settles O4, by the two forms of the agenda: an engine turn at its head, and none left while PENDING is full. -/
theorem stepRunsTheDecodedCommand : Obligations.StepRunsTheDecodedCommand := by
  unfold Obligations.StepRunsTheDecodedCommand
  intro s w i hp hd
  refine ⟨fun rest hagenda => ?_, fun hagenda => ?_⟩
  · rw [step_of_agenda_cons hagenda, takeTurn_engine]
    exact engineStep_of_decode_ok hp hd
  · rw [step_of_agenda_nil hagenda, quietStep_of_pending hp]
    exact engineStep_of_decode_ok hp hd

/-- Settles O5: withFetchWord puts the engine's turn first, and that turn decodes the word back. -/
theorem fetchedWordRunsNext : Obligations.FetchedWordRunsNext := by
  unfold Obligations.FetchedWordRunsNext
  intro s i
  rw [State.withFetchWord, tableWord_toNat, State.issueWord,
    step_of_agenda_cons (State.withAgenda_agenda (s.accept (encode i)) (.engine :: s.agenda)), takeTurn_engine]
  exact engineStep_of_decode_ok rfl (decode_encode i)

/-- Settles O6: with PENDING empty both the engine's turn and the step with no turn left keep the state. -/
theorem emptyLatchIdles : Obligations.EmptyLatchIdles := by
  unfold Obligations.EmptyLatchIdles
  intro s hp
  exact ⟨engineStep_of_idle hp, fun hagenda => (step_of_agenda_nil hagenda).trans (quietStep_of_idle hp)⟩

end Sys2Proof.Machine
end

section
/-! SUPPORT. The shape of the tree BUILD computes (41_tree_builder.md R121, R126): every node but the last has exactly
one parent, weights grow towards the root, and the root carries the sum of the counts. -/

namespace Sys2Proof.Machine

open Sys2Proof.Claims

/-! ## Parents -/

/-- Node `i` is a child of `x`, on one side or both. -/
def HasChild (x : Node) (i : Nat) : Prop := x.left.toNat = i ∨ x.right.toNat = i

/-- Node `i` is a child of `x`, on one side only (R121). -/
def ChildOnOneSide (x : Node) (i : Nat) : Prop :=
  (x.left.toNat = i ∧ x.right.toNat ≠ i) ∨ (x.right.toNat = i ∧ x.left.toNat ≠ i)

theorem inQueue_lt {arena : List Node} {n i : Nat} (h : InQueue arena n i) : i < n := h.1

/-- The first nodes are leaves, so an internal node was merged by the loop. -/
theorem leaves_le_of_internal {freq : Vector Word 256} {m : Nat} {x : Node} (hx : (treeArena freq)[m]? = some x)
    (hleaf : x.isLeaf = false) : (leavesOf freq).length ≤ m := by
  by_contra hlt
  rw [getElem?_of_prefix (leavesOf_prefix freq) (Nat.lt_of_not_le hlt)] at hx
  simp [isLeaf_of_leavesOf_getElem? hx] at hleaf

theorem treeArena_length_le (freq : Vector Word 256) : (treeArena freq).length ≤ 511 := by
  have hlen := treeArena_length freq
  have hle := leavesOf_length_le freq
  omega

section
variable {freq : Vector Word 256} (hfits : freqSum freq < 2 ^ 32)
include hfits

/-- An internal node's children are two nodes of the queue it was created from, and its weight is their sum. -/
theorem children_of_internal {m : Nat} {x : Node} (hx : (treeArena freq)[m]? = some x) (hleaf : x.isLeaf = false) :
    InQueue (treeArena freq) m x.left.toNat ∧ InQueue (treeArena freq) m x.right.toNat ∧
      x.left.toNat ≠ x.right.toNat ∧
      x.weight.toNat = weightOf (treeArena freq) x.left.toNat + weightOf (treeArena freq) x.right.toNat := by
  have hm := (List.getElem?_eq_some_iff.1 hx).1
  have hle := treeArena_length_le freq
  obtain ⟨a, b, w, hnode, ha, hb, hw⟩ := mergedAt_treeArena hfits (leaves_le_of_internal hx hleaf) hm
  obtain rfl := Option.some.inj (hx.symm.trans hnode)
  have hindex : ∀ i, i < m → (BitVec.ofNat 9 i).toNat = i := fun i hi => by
    rw [BitVec.toNat_ofNat]
    exact Nat.mod_eq_of_lt (by omega)
  rw [hindex a (inQueue_lt ha.1), hindex b (inQueue_lt hb.1.1)]
  exact ⟨ha.1, hb.1.1, hb.1.2.symm, hw⟩

theorem childOnOneSide_of_child {m i : Nat} {x : Node} (hx : (treeArena freq)[m]? = some x) (hleaf : x.isLeaf = false)
    (hchild : HasChild x i) : i < m ∧ ChildOnOneSide x i := by
  obtain ⟨hl, hr, hne, -⟩ := children_of_internal hfits hx hleaf
  rcases hchild with rfl | rfl
  · exact ⟨inQueue_lt hl, .inl ⟨rfl, hne.symm⟩⟩
  · exact ⟨inQueue_lt hr, .inr ⟨rfl, hne⟩⟩

/-- Once a node is a child it has left the queue, so no later node takes it again. -/
theorem not_lt_of_common_child {m n i : Nat} {x z : Node} (hx : (treeArena freq)[m]? = some x)
    (hxleaf : x.isLeaf = false) (hxi : HasChild x i) (hz : (treeArena freq)[n]? = some z)
    (hzleaf : z.isLeaf = false) (hzi : HasChild z i) : ¬ m < n := by
  intro hlt
  obtain ⟨hl, hr, -, -⟩ := children_of_internal hfits hz hzleaf
  have hqueue : InQueue (treeArena freq) n i := by
    rcases hzi with rfl | rfl
    · exact hl
    · exact hr
  obtain ⟨hnl, hnr⟩ := hqueue.2 m x hlt hx hxleaf
  exact hxi.elim hnl hnr

theorem parent_unique {m n i : Nat} {x z : Node} (hx : (treeArena freq)[m]? = some x) (hxleaf : x.isLeaf = false)
    (hxi : HasChild x i) (hz : (treeArena freq)[n]? = some z) (hzleaf : z.isLeaf = false)
    (hzi : HasChild z i) : m = n :=
  Nat.le_antisymm (Nat.le_of_not_lt (not_lt_of_common_child hfits hz hzleaf hzi hx hxleaf hxi))
    (Nat.le_of_not_lt (not_lt_of_common_child hfits hx hxleaf hxi hz hzleaf hzi))

variable (hk : distinctCount freq ≠ 0)
include hk

/-- The last node alone has no parent (R120). -/
theorem exists_parent {i : Nat} (hi : i + 1 < (treeArena freq).length) :
    ∃ (m : Nat) (x : Node), (treeArena freq)[m]? = some x ∧ x.isLeaf = false ∧ HasChild x i := by
  obtain ⟨w, hw⟩ := buildTree_queue hfits (leavesOf_ne_nil hk)
  have hout : ¬ InQueue (treeArena freq) (treeArena freq).length i := by
    rw [← (queueOk_buildTree hfits).mem_iff, hw, List.map_singleton, List.mem_singleton]
    omega
  by_contra hnone
  refine hout ⟨by omega, fun m x _ hx hleaf => not_or.1 fun hchild => hnone ⟨m, x, hx, hleaf, hchild⟩⟩

/-! ## Weights -/

/-- The root's weight is the sum of the counts (R121). -/
theorem weightOf_root : weightOf (treeArena freq) ((treeArena freq).length - 1) = freqSum freq := by
  obtain ⟨w, hw⟩ := buildTree_queue hfits (leavesOf_ne_nil hk)
  have hmem : (w, (treeArena freq).length - 1) ∈ (buildTree freq).2 := hw ▸ List.mem_singleton_self _
  calc weightOf (treeArena freq) ((treeArena freq).length - 1)
      = w.toNat := ((queueOk_buildTree hfits).weight _ hmem).symm
    _ = weightIn freq (rootBranches freq) := (forestOk_buildTree hfits).weight _ hmem
    _ = ((tableSymbols freq).map fun y => (entry freq y).toNat).sum := by
        rw [← ((rootBranches_syms hfits hk).map _).sum_eq, List.map_map]
        rfl
    _ = freqSum freq := sum_tableSymbols fun y hy => by simp [hy]

/-- A parent weighs at least as much as its child, so no node weighs more than the root. -/
theorem weightOf_le_freqSum (i : Nat) : weightOf (treeArena freq) i ≤ freqSum freq := by
  induction hdist : (treeArena freq).length - i using Nat.strong_induction_on generalizing i with
  | h d ih => ?_
  rcases Nat.lt_trichotomy (i + 1) (treeArena freq).length with hlt | heq | hgt
  · obtain ⟨m, x, hx, hleaf, hchild⟩ := exists_parent hfits hk hlt
    obtain ⟨-, -, -, hw⟩ := children_of_internal hfits hx hleaf
    have hup : weightOf (treeArena freq) i ≤ weightOf (treeArena freq) m := by
      rw [weightOf_of_getElem? hx, hw]
      rcases hchild with rfl | rfl
      · exact Nat.le_add_right _ _
      · exact Nat.le_add_left _ _
    have hold := (childOnOneSide_of_child hfits hx hleaf hchild).1
    have hm := (List.getElem?_eq_some_iff.1 hx).1
    exact hup.trans (ih _ (by omega) m rfl)
  · rw [show i = (treeArena freq).length - 1 by omega, weightOf_root hfits hk]
  · rw [weightOf, List.getElem?_eq_none (by omega)]
    exact Nat.zero_le _

end

/-! ## The node store -/

/-- A node store that holds the tree reads as its arena. -/
theorem State.HoldsTree.read_iff {s : State} (h : s.HoldsTree) {m : Nat} {x : Node} :
    (Memory.read s.nodes m = some x ∧ m < s.nnodes.toNat) ↔ (treeArena s.freq)[m]? = some x := by
  obtain ⟨hnodes, -, hcount⟩ := h
  constructor
  · rintro ⟨hread, hm⟩
    rw [← hnodes m (hcount ▸ hm), hread]
  · intro hx
    have hm := (List.getElem?_eq_some_iff.1 hx).1
    exact ⟨(hnodes m hm).trans hx, hcount ▸ hm⟩

/-! ## The obligations -/

/-- Settles O34: the queue of the loop holds the nodes without a parent, its end is the root alone, and a parent's
weight is the sum of its children's. -/
theorem builtTreeShape : Obligations.BuiltTreeShape := by
  unfold Obligations.BuiltTreeShape
  intro s hok htree hne
  have hk : distinctCount s.freq ≠ 0 := fun h => hne (BitVec.eq_of_toNat_eq (hok.2.trans h))
  have hroot : 2 * s.ndistinct.toNat - 2 = (treeArena s.freq).length - 1 := by
    rw [treeArena_length, leavesOf_length, hok.2]
    omega
  refine ⟨?_, fun i => hok.1 ▸ weightOf_le_freqSum hok.fits hk i, fun i hi => ?_⟩
  · rw [hroot, weightOf_root hok.fits hk, hok.1]
  · obtain ⟨n, x, hx, hleaf, hchild⟩ := exists_parent hok.fits hk (i := i) (by omega)
    obtain ⟨hread, hn⟩ := htree.read_iff.2 hx
    obtain ⟨hold, hside⟩ := childOnOneSide_of_child hok.fits hx hleaf hchild
    refine ⟨n, x, ⟨hread, hn, hleaf, hold, hside⟩, fun m z hz hm hzleaf hzchild => ?_⟩
    exact parent_unique hok.fits (htree.read_iff.1 ⟨hz, hm⟩) hzleaf hzchild hx hleaf hchild

/-- The tree of any FREQ fits the ten bits of NNODES. -/
theorem treeArena_length_toNat (freq : Vector Word 256) :
    (BitVec.ofNat 10 (treeArena freq).length).toNat = (treeArena freq).length := by
  have hle := treeArena_length_le freq
  rw [BitVec.toNat_ofNat]
  exact Nat.mod_eq_of_lt (by omega)

/-- BUILD leaves the tree of FREQ in the node store, whatever FREQ is (R120). -/
theorem State.holdsTree_setTree (s : State) : (s.setTree (treeArena s.freq) (treeRoot s.freq)).HoldsTree := by
  refine ⟨fun i hi => ?_, rfl, treeArena_length_toNat s.freq⟩
  rw [State.setTree_freq] at hi ⊢
  rw [State.setTree_nodes, Memory.read_writeFrom, if_pos (by omega), Nat.sub_zero]

theorem State.read_setTree_of_ge (s : State) {i : Nat} (hi : (treeArena s.freq).length ≤ i) :
    Memory.read (s.setTree (treeArena s.freq) (treeRoot s.freq)).nodes i = Memory.read s.nodes i := by
  rw [State.setTree_nodes, Memory.read_writeFrom, if_neg (by omega)]

theorem holdsTree_of_exec_build {s t : State} (h : exec .build s = .next t) : t.HoldsTree ∧ t.freq = s.freq := by
  obtain rfl := Host.Outcome.next.inj ((exec_build s).symm.trans h)
  exact ⟨s.holdsTree_setTree, rfl⟩

/-- Settles O35: what BUILD leaves is the tree of FREQ, and nothing else determines it. -/
theorem buildDependsOnFreqAlone : Obligations.BuildDependsOnFreqAlone := by
  unfold Obligations.BuildDependsOnFreqAlone
  intro s u t v hfreq ht hv
  obtain ⟨⟨htn, htr, htc⟩, htf⟩ := holdsTree_of_exec_build ht
  obtain ⟨⟨hvn, hvr, hvc⟩, hvf⟩ := holdsTree_of_exec_build hv
  rw [htf] at htn htr htc
  rw [hvf, ← hfreq] at hvn hvr hvc
  refine ⟨htr.trans hvr.symm, BitVec.eq_of_toNat_eq (htc.trans hvc.symm), fun i hi => ?_⟩
  have hlt : i < (treeArena s.freq).length := htc ▸ hi
  refine ⟨(htn i hlt).trans (hvn i hlt).symm, ?_⟩
  rw [htn i hlt, List.getElem?_eq_getElem hlt]
  exact Option.some_ne_none _

end Sys2Proof.Machine
end

section
/-! SUPPORT. Paths in the tree (42_code_table.md R141 to R144): the branches of a node are the paths that end in a leaf,
a path past a leaf leads nowhere, and a node store that holds BUILD's tree has its paths. -/

namespace Sys2Proof.Machine

open Sys2Proof.Claims

/-! ## Paths -/

/-- The path `p` from node `n` ends in a leaf with symbol `y` (R141). -/
def LeadsTo (node : NodeIdx → Node) (n : NodeIdx) (p : Code) (y : Symbol) : Prop :=
  ∃ m, follow node n p = some m ∧ (node m).isLeaf = true ∧ (node m).sym = y

/-- The child of `x` on the side of branch bit `b`. -/
def childOn (x : Node) (b : Bool) : NodeIdx := if b then x.right else x.left

section
variable {node : NodeIdx → Node} {n m : NodeIdx} {p q : Code}

@[simp] theorem follow_nil (node : NodeIdx → Node) (n : NodeIdx) : follow node n [] = some n := rfl

theorem follow_cons_of_leaf (h : (node n).isLeaf = true) (b : Bool) (p : Code) : follow node n (b :: p) = none := by
  rw [follow, if_pos h]

theorem follow_cons_of_internal (h : (node n).isLeaf = false) (b : Bool) (p : Code) :
    follow node n (b :: p) = follow node (childOn (node n) b) p := by
  rw [follow, if_neg (Bool.eq_false_iff.1 h)]
  rfl

theorem follow_append (h : follow node n p = some m) (q : Code) : follow node n (p ++ q) = follow node m q := by
  induction p generalizing n with
  | nil =>
    obtain rfl := Option.some.inj h
    rfl
  | cons b p ih =>
    cases hleaf : (node n).isLeaf with
    | true => simp [follow_cons_of_leaf hleaf] at h
    | false =>
      rw [follow_cons_of_internal hleaf] at h
      rw [List.cons_append, follow_cons_of_internal hleaf, ih h]

/-- No path leads past a leaf. -/
theorem eq_of_leaf_of_extends {m' : NodeIdx} (hp : follow node n p = some m) (hleaf : (node m).isLeaf = true)
    (hq : follow node n q = some m') (h : p <+: q) : p = q := by
  obtain ⟨t, rfl⟩ := h
  rw [follow_append hp] at hq
  cases t with
  | nil => rw [List.append_nil]
  | cons b t => simp [follow_cons_of_leaf hleaf] at hq

theorem leadsTo_of_leaf {y : Symbol} (h : (node n).isLeaf = true) :
    LeadsTo node n p y ↔ p = [] ∧ (node n).sym = y := by
  cases p with
  | nil => simp [LeadsTo, h]
  | cons b p => simp [LeadsTo, follow_cons_of_leaf h]

/-- A bit sequence is a path, or one of its initial parts ends in a leaf. -/
theorem follow_ne_none_or_leaf (node : NodeIdx → Node) (n : NodeIdx) (p : Code) :
    (∃ m, follow node n p = some m) ∨ ∃ q y, q <+: p ∧ LeadsTo node n q y := by
  induction p generalizing n with
  | nil => exact .inl ⟨n, rfl⟩
  | cons b p ih =>
    cases hleaf : (node n).isLeaf with
    | true => exact .inr ⟨[], _, List.nil_prefix, n, rfl, hleaf, rfl⟩
    | false =>
      rcases ih (childOn (node n) b) with ⟨m, hm⟩ | ⟨q, y, hqp, m, hm, hmleaf, hy⟩
      · exact .inl ⟨m, by rw [follow_cons_of_internal hleaf, hm]⟩
      · exact .inr ⟨b :: q, y, List.cons_prefix_cons.2 ⟨rfl, hqp⟩, m,
          by rw [follow_cons_of_internal hleaf, hm], hmleaf, hy⟩

section
variable (hdown : Descending node)
include hdown

theorem Descending.childOn_lt (h : (node n).isLeaf = false) (b : Bool) :
    (childOn (node n) b).toNat < n.toNat := by
  obtain ⟨hl, hr⟩ := hdown n h
  cases b
  · exact hl
  · exact hr

/-- A path of one bit or more ends below its start. -/
theorem Descending.follow_le (h : follow node n p = some m) : m.toNat + p.length ≤ n.toNat := by
  induction p generalizing n with
  | nil =>
    obtain rfl := Option.some.inj h
    exact le_rfl
  | cons b p ih =>
    cases hleaf : (node n).isLeaf with
    | true => simp [follow_cons_of_leaf hleaf] at h
    | false =>
      rw [follow_cons_of_internal hleaf] at h
      have hle := ih h
      have hlt := hdown.childOn_lt hleaf b
      rw [List.length_cons]
      omega

/-- Induction along the way down: a node may use its two children. -/
theorem Descending.induction {P : NodeIdx → Prop} (hleaf : ∀ n, (node n).isLeaf = true → P n)
    (hinner : ∀ n, (node n).isLeaf = false → (∀ b, P (childOn (node n) b)) → P n) (n : NodeIdx) : P n := by
  induction hn : n.toNat using Nat.strong_induction_on generalizing n with
  | h d ih => ?_
  cases h : (node n).isLeaf with
  | true => exact hleaf n h
  | false => exact hinner n h fun b => ih _ (hn ▸ hdown.childOn_lt h b) _ rfl

/-- Below every node there is a leaf. -/
theorem Descending.exists_leaf (n : NodeIdx) : ∃ p y, LeadsTo node n p y := by
  induction n using hdown.induction with
  | hleaf n h => exact ⟨[], _, n, rfl, h, rfl⟩
  | hinner n h ih =>
    obtain ⟨p, y, m, hm, hleaf, hy⟩ := ih false
    exact ⟨false :: p, y, m, by rw [follow_cons_of_internal h, hm], hleaf, hy⟩

/-- The branches of a node are its paths to leaves (R140, R141). -/
theorem mem_branches_iff {y : Symbol} : (y, p) ∈ branches node n ↔ LeadsTo node n p y := by
  induction n using hdown.induction generalizing p with
  | hleaf n h => rw [branches_of_leaf h, leadsTo_of_leaf h]; simp [and_comm, eq_comm]
  | hinner n h ih =>
    have hside : ∀ b, (y, p) ∈ prefixed [b] (branches node (childOn (node n) b)) ↔
        ∃ q, p = b :: q ∧ LeadsTo node (childOn (node n) b) q y := fun b => by
      simp only [prefixed, List.mem_map, Prod.mk.injEq, List.singleton_append, Prod.exists, ← ih b]
      exact ⟨fun ⟨_, q, hmem, hy, hp⟩ => ⟨q, hp.symm, hy ▸ hmem⟩, fun ⟨q, hp, hmem⟩ => ⟨y, q, hmem, rfl, hp.symm⟩⟩
    rw [branches_of_internal hdown h, List.mem_append]
    refine (or_congr (hside false) (hside true)).trans ?_
    cases p with
    | nil => simp [LeadsTo, h]
    | cons b p => cases b <;> simp [LeadsTo, follow_cons_of_internal h]

theorem branches_ne_nil (n : NodeIdx) : branches node n ≠ [] := by
  obtain ⟨p, y, h⟩ := hdown.exists_leaf n
  exact List.ne_nil_of_mem ((mem_branches_iff hdown).2 h)

/-- A leaf lies no deeper than the other leaves allow (R142). -/
theorem length_lt_branches_length {e : Symbol × Code} (he : e ∈ branches node n) :
    e.2.length < (branches node n).length := by
  induction n using hdown.induction generalizing e with
  | hleaf n h =>
    rw [branches_of_leaf h, List.mem_singleton] at he
    rw [branches_of_leaf h, he]
    exact Nat.one_pos
  | hinner n h ih =>
    have hpos : ∀ n', 0 < (branches node n').length := fun n' => List.length_pos_iff.2 (branches_ne_nil hdown n')
    have hside : ∀ b, e ∈ prefixed [b] (branches node (childOn (node n) b)) →
        e.2.length ≤ (branches node (childOn (node n) b)).length := fun b hb => by
      obtain ⟨e', he', rfl⟩ := List.mem_map.1 hb
      have := ih b he'
      simp only [List.singleton_append, List.length_cons]
      omega
    rw [branches_of_internal hdown h] at he ⊢
    rw [List.length_append, prefixed, prefixed, List.length_map, List.length_map]
    have hl := hpos (node n).left
    have hr := hpos (node n).right
    rcases List.mem_append.1 he with he | he
    · have := hside false he
      simp only [childOn, Bool.false_eq_true, if_false] at this
      omega
    · have := hside true he
      simp only [childOn, if_true] at this
      omega

/-! ## Node stores that agree up to a node -/

variable {node' : NodeIdx → Node}

theorem walk_congr (hsame : ∀ m, m.toNat ≤ n.toNat → node' m = node m) (d : Nat) (p : Code) :
    walk node' d n p = walk node d n p := by
  induction d generalizing n p with
  | zero => rfl
  | succ d ih =>
    rw [walk, walk, hsame n le_rfl]
    split
    · rfl
    · next h =>
      obtain ⟨hl, hr⟩ := hdown n (Bool.eq_false_iff.2 h)
      rw [ih fun m hm => hsame m (by omega), ih fun m hm => hsame m (by omega)]

theorem follow_congr (hsame : ∀ m, m.toNat ≤ n.toNat → node' m = node m) (p : Code) :
    follow node' n p = follow node n p := by
  induction p generalizing n with
  | nil => rfl
  | cons b p ih =>
    cases h : (node n).isLeaf with
    | true => rw [follow_cons_of_leaf h, follow_cons_of_leaf (hsame n le_rfl ▸ h)]
    | false =>
      have hlt := hdown.childOn_lt h b
      rw [follow_cons_of_internal h, follow_cons_of_internal (hsame n le_rfl ▸ h), hsame n le_rfl,
        ih fun m hm => hsame m (by omega)]

theorem leadsTo_congr (hsame : ∀ m, m.toNat ≤ n.toNat → node' m = node m) {y : Symbol} :
    LeadsTo node' n p y ↔ LeadsTo node n p y := by
  unfold LeadsTo
  rw [follow_congr hdown hsame]
  refine exists_congr fun m => and_congr_right fun hm => ?_
  have hle := hdown.follow_le hm
  rw [hsame m (by omega)]

end

end

/-! ## The lengths of codes -/

/-- The walk ends before its depth bound, so a path has fewer bits (log 10). -/
theorem walk_length_lt {node : NodeIdx → Node} {d : Nat} {n : NodeIdx} {p : Code} {e : Symbol × Code}
    (h : e ∈ walk node d n p) : e.2.length < p.length + d := by
  induction d generalizing n p with
  | zero => simp [walk] at h
  | succ d ih =>
    rw [walk] at h
    split at h
    · rw [List.mem_singleton.1 h]
      exact Nat.lt_add_of_pos_right (Nat.succ_pos d)
    · rcases List.mem_append.1 h with h | h
      all_goals
        have hlt := ih h
        rw [List.length_append, List.length_singleton] at hlt
        omega

theorem codeAssignments_length_lt {node : NodeIdx → Node} {root : Option NodeIdx} {e : Symbol × Code}
    (h : e ∈ codeAssignments node root) : e.2.length < Config.nodeCap := by
  unfold codeAssignments at h
  split at h
  · cases h
  · split at h
    · rw [List.mem_singleton.1 h, List.length_singleton, Config.nodeCap]
      decide
    · have := walk_length_lt h
      rwa [List.length_nil, Nat.zero_add] at this

/-- A table's entry is one of the assignments, or the empty sequence. -/
theorem entry_codeTableOf_mem (as : List (Symbol × Code)) (y : Symbol) :
    entry (codeTableOf as) y = [] ∨ (y, entry (codeTableOf as) y) ∈ as := by
  rw [codeTableOf, entry_tabulate]
  cases h : as.reverse.lookup y with
  | none => exact .inl rfl
  | some c =>
    obtain ⟨l, r, hsplit, -⟩ := List.lookup_eq_some_iff.1 h
    refine .inr (List.mem_reverse.1 ?_)
    rw [hsplit]
    simp

theorem longestCode_codeAssignments_lt (node : NodeIdx → Node) (root : Option NodeIdx) :
    longestCode (codeTableOf (codeAssignments node root)) < 2 ^ 9 := by
  refine Nat.lt_succ_of_le (longestCode_le_iff.2 fun y => ?_)
  rcases entry_codeTableOf_mem (codeAssignments node root) y with h | h
  · rw [h]
    exact Nat.zero_le _
  · exact (codeAssignments_length_lt h).le

/-- MAXLEN's nine bits hold every length (R37). -/
theorem longestCode_toNat (node : NodeIdx → Node) (root : Option NodeIdx) :
    (BitVec.ofNat 9 (longestCode (codeTableOf (codeAssignments node root)))).toNat =
      longestCode (codeTableOf (codeAssignments node root)) := by
  rw [BitVec.toNat_ofNat]
  exact Nat.mod_eq_of_lt (longestCode_codeAssignments_lt node root)

theorem exists_length_eq_longestCode (t : CodeTable) : ∃ y, (entry t y).length = longestCode t := by
  by_contra! hne
  have hless : ∀ y, (entry t y).length < longestCode t := fun y =>
    Nat.lt_of_le_of_ne (length_entry_le_longestCode t y) (hne y)
  have hle : longestCode t ≤ longestCode t - 1 := longestCode_le_iff.2 fun y => Nat.le_sub_one_of_lt (hless y)
  have := hless 0#8
  omega

/-! ## The codes of a table -/

/-- The index of the root of a tree that is not empty: the last node (R120). -/
def rootIndex (freq : Vector Word 256) : NodeIdx := BitVec.ofNat 9 ((treeArena freq).length - 1)

theorem rootIndex_toNat (freq : Vector Word 256) : (rootIndex freq).toNat = (treeArena freq).length - 1 := by
  have hle := treeArena_length_le freq
  rw [rootIndex, BitVec.toNat_ofNat]
  exact Nat.mod_eq_of_lt (by omega)

section
variable {freq : Vector Word 256} (hfits : freqSum freq < 2 ^ 32)
include hfits

theorem treeRoot_eq_some (hk : distinctCount freq ≠ 0) : treeRoot freq = some (rootIndex freq) := by
  have hlen := treeArena_length freq
  rw [leavesOf_length] at hlen
  rw [treeRoot_eq hfits, if_neg hk, rootIndex, show (treeArena freq).length - 1 = 2 * distinctCount freq - 2 by omega]

theorem eq_rootIndex {r : NodeIdx} (h : treeRoot freq = some r) : r = rootIndex freq := by
  have hk : distinctCount freq ≠ 0 := fun h0 => by simp [treeRoot_eq hfits, h0] at h
  exact (Option.some.inj ((treeRoot_eq_some hfits hk).symm.trans h)).symm

theorem descending_treeArena : Descending (arenaNode (treeArena freq)) := (childrenOlder_treeArena hfits).descending

theorem rootBranches_length (hk : distinctCount freq ≠ 0) : (rootBranches freq).length = distinctCount freq := by
  rw [← tableSymbols_length, ← (rootBranches_syms hfits hk).length_eq, List.length_map]

variable (hk : 2 ≤ distinctCount freq)
include hk

/-- A tree of two leaves or more is no leaf. -/
theorem rootNode_internal : (arenaNode (treeArena freq) (rootIndex freq)).isLeaf = false := by
  by_contra h
  have hlen := rootBranches_length hfits (by omega)
  rw [rootBranches, ← rootIndex, branches_of_leaf (by simpa using h), List.length_singleton] at hlen
  omega

theorem mem_rootBranches_iff {y : Symbol} {p : Code} :
    (y, p) ∈ rootBranches freq ↔ entry freq y ≠ 0#32 ∧ entry (codesOf freq) y = p := by
  have hmem : y ∈ (rootBranches freq).map Prod.fst ↔ entry freq y ≠ 0#32 :=
    (rootBranches_syms hfits (by omega)).mem_iff.trans mem_tableSymbols
  constructor
  · intro h
    exact ⟨hmem.1 (List.mem_map_of_mem (f := Prod.fst) h), entry_codesOf hfits hk h⟩
  · rintro ⟨hy, rfl⟩
    obtain ⟨e, he, rfl⟩ := List.mem_map.1 (hmem.2 hy)
    rw [entry_codesOf hfits hk he]
    exact he

/-- The codes of a table are its tree's paths from the root to the leaves (R141). -/
theorem leadsTo_root_iff {y : Symbol} {p : Code} :
    LeadsTo (arenaNode (treeArena freq)) (rootIndex freq) p y ↔
      entry freq y ≠ 0#32 ∧ entry (codesOf freq) y = p :=
  (mem_branches_iff (descending_treeArena hfits)).symm.trans (mem_rootBranches_iff hfits hk)

theorem entry_codesOf_of_absent {y : Symbol} (hy : entry freq y = 0#32) : entry (codesOf freq) y = [] := by
  rcases entry_codeTableOf_mem (codeAssignments (arenaNode (treeArena freq)) (treeRoot freq)) y with h | h
  · exact h
  · rw [codeAssignments_treeArena hfits hk] at h
    exact absurd hy ((mem_rootBranches_iff hfits hk).1 h).1

/-- R142: from 1 to k − 1 bits. -/
theorem entry_codesOf_length {y : Symbol} (hy : entry freq y ≠ 0#32) :
    1 ≤ (entry (codesOf freq) y).length ∧ (entry (codesOf freq) y).length ≤ distinctCount freq - 1 := by
  have hmem := (mem_rootBranches_iff hfits hk).2 ⟨hy, rfl⟩
  have hlt := length_lt_branches_length (descending_treeArena hfits) hmem
  rw [← rootBranches, rootBranches_length hfits (by omega)] at hlt
  refine ⟨Nat.one_le_iff_ne_zero.2 fun hzero => ?_, Nat.le_pred_of_lt hlt⟩
  obtain ⟨m, hm, hleaf, -⟩ := (leadsTo_root_iff hfits hk).2 ⟨hy, List.length_eq_zero_iff.1 hzero⟩
  obtain rfl := Option.some.inj hm
  rw [rootNode_internal hfits hk] at hleaf
  cases hleaf

theorem entry_codesOf_ne_nil {y : Symbol} (hy : entry freq y ≠ 0#32) : entry (codesOf freq) y ≠ [] := fun h => by
  have := (entry_codesOf_length hfits hk hy).1
  simp [h] at this

theorem prefixFree_codesOf : PrefixFree freq (entry (codesOf freq)) := by
  intro y z hy hz hne h
  obtain ⟨m, hm, hleaf, hsym⟩ := (leadsTo_root_iff hfits hk).2 ⟨hy, rfl⟩
  obtain ⟨m', hm', -, hsym'⟩ := (leadsTo_root_iff hfits hk).2 ⟨hz, rfl⟩
  have hsame := eq_of_leaf_of_extends hm hleaf hm' h
  rw [hsame] at hm
  obtain rfl := Option.some.inj (hm.symm.trans hm')
  exact hne (hsym.symm.trans hsym')

/-- R143, completeness: from where a bit sequence leads there is a leaf below, and a sequence that leads nowhere has
passed one. -/
theorem exists_comparable_code (p : Code) :
    ∃ y, entry freq y ≠ 0#32 ∧ (p <+: entry (codesOf freq) y ∨ entry (codesOf freq) y <+: p) := by
  have hdown := descending_treeArena hfits
  rcases follow_ne_none_or_leaf (arenaNode (treeArena freq)) (rootIndex freq) p with ⟨n, hn⟩ | ⟨q, y, hqp, hq⟩
  · obtain ⟨q, y, m, hm, hleaf, hsym⟩ := hdown.exists_leaf n
    obtain ⟨hy, hcode⟩ := (leadsTo_root_iff hfits hk).1 ⟨m, (follow_append hn q).trans hm, hleaf, hsym⟩
    exact ⟨y, hy, .inl (hcode ▸ List.prefix_append p q)⟩
  · obtain ⟨hy, hcode⟩ := (leadsTo_root_iff hfits hk).1 hq
    exact ⟨y, hy, .inr (hcode ▸ hqp)⟩

end

/-! ## The node store that holds the tree -/

theorem State.HoldsTree.nodeAt {s : State} (h : s.HoldsTree) {n : NodeIdx} (hn : n.toNat < (treeArena s.freq).length) :
    s.nodeAt n = arenaNode (treeArena s.freq) n := by
  rw [State.nodeAt, h.1 n.toNat hn, arenaNode, List.getD_eq_getElem?_getD, List.getElem?_eq_getElem hn]
  rfl

/-- The store agrees with BUILD's arena from the root down. -/
theorem State.HoldsTree.nodeAt_of_le_root {s : State} (h : s.HoldsTree) (hk : distinctCount s.freq ≠ 0) (n : NodeIdx)
    (hn : n.toNat ≤ (rootIndex s.freq).toNat) : s.nodeAt n = arenaNode (treeArena s.freq) n := by
  have hlen := treeArena_length s.freq
  rw [leavesOf_length] at hlen
  rw [rootIndex_toNat] at hn
  exact h.nodeAt (by omega)

/-- From such a store GEN assigns the codes of FREQ (R140). -/
theorem State.HoldsTree.codeAssignments_eq {s : State} (h : s.HoldsTree) (hfits : freqSum s.freq < 2 ^ 32) :
    codeAssignments s.nodeAt s.root = codeAssignments (arenaNode (treeArena s.freq)) (treeRoot s.freq) := by
  have ⟨_, hroot, _⟩ := h
  rw [hroot]
  by_cases hk : distinctCount s.freq = 0
  · rw [treeRoot_eq hfits, if_pos hk, codeAssignments_none, codeAssignments_none]
  · have hsame := State.HoldsTree.nodeAt_of_le_root h hk
    rw [treeRoot_eq_some hfits hk, codeAssignments, codeAssignments, hsame _ le_rfl,
      walk_congr (descending_treeArena hfits) hsame]

/-- GEN's body on such a state: the code table of FREQ (R140). -/
theorem genBody_of_holdsTree {s : State} (hvalid : s.treeValid = true) (h : s.HoldsTree)
    (hfits : freqSum s.freq < 2 ^ 32) :
    genBody s = .ok (s.setCodes (codesOf s.freq) (BitVec.ofNat 9 (longestCode (codesOf s.freq)))) := by
  rw [genBody, if_pos hvalid, State.HoldsTree.codeAssignments_eq h hfits, codesOf]

theorem State.holdsCodes_setCodes (s : State) :
    (s.setCodes (codesOf s.freq) (BitVec.ofNat 9 (longestCode (codesOf s.freq)))).HoldsCodes :=
  ⟨rfl, longestCode_toNat _ _⟩

theorem State.HoldsTree.leadsTo_iff {s : State} (h : s.HoldsTree) (hfits : freqSum s.freq < 2 ^ 32)
    (hk : 2 ≤ distinctCount s.freq) {y : Symbol} {p : Code} :
    LeadsTo s.nodeAt (rootIndex s.freq) p y ↔ entry s.freq y ≠ 0#32 ∧ entry (codesOf s.freq) y = p :=
  (leadsTo_congr (descending_treeArena hfits) (State.HoldsTree.nodeAt_of_le_root h (by omega))).trans
    (leadsTo_root_iff hfits hk)

/-! ## The obligations -/

/-- Settles O37: GEN's assignments are the leaves of the tree with their paths, one per symbol of the table. -/
theorem genCodesAreRootToLeafPaths : Obligations.GenCodesAreRootToLeafPaths := by
  unfold Obligations.GenCodesAreRootToLeafPaths
  intro s r hok htree hvalid hk hroot
  have hk' : 2 ≤ distinctCount s.freq := hok.2 ▸ hk
  obtain rfl := eq_rootIndex hok.fits (htree.2.1.symm.trans hroot)
  refine ⟨codesOf s.freq, BitVec.ofNat 9 (longestCode (codesOf s.freq)),
    congrArg Body.finish (genBody_of_holdsTree hvalid htree hok.fits),
    fun y hy => (htree.leadsTo_iff hok.fits hk').2 ⟨hy, rfl⟩, fun y hy => entry_codesOf_of_absent hok.fits hk' hy, ?_⟩
  rw [codesOf, longestCode_toNat]
  exact ⟨length_entry_le_longestCode _, exists_length_eq_longestCode _⟩

/-- Settles O38: a leaf lies below the root and no deeper than the other k − 1 leaves allow. -/
theorem codeLengthBound : Obligations.CodeLengthBound := by
  unfold Obligations.CodeLengthBound
  intro s hok hcodes hvalid hk y
  have hk' : 2 ≤ distinctCount s.freq := hok.2 ▸ hk
  rw [State.HoldsCodes.codeAt (hcodes hvalid).2, hok.2]
  exact ⟨entry_codesOf_length hok.fits hk', entry_codesOf_of_absent hok.fits hk'⟩

/-- Settles O39: no path leads past a leaf, and every bit sequence is a path or has passed a leaf. -/
theorem codesPrefixFreeAndComplete : Obligations.CodesPrefixFreeAndComplete := by
  unfold Obligations.CodesPrefixFreeAndComplete
  intro s hok hcodes hvalid hk
  have hk' : 2 ≤ distinctCount s.freq := hok.2 ▸ hk
  rw [State.HoldsCodes.codeAt (hcodes hvalid).2]
  exact ⟨prefixFree_codesOf hok.fits hk', exists_comparable_code hok.fits hk'⟩

end Sys2Proof.Machine
end

section
/-! SUPPORT. PARSE's loop (44_decoder.md R180 to R182) over a stream that is codes and a tail, and the tree walk that
answers the same: the candidate is the path from the root to the walk's node. -/

namespace Sys2Proof.Machine

open Sys2Proof.Claims

/-! ## Codes a stream can be split into -/

/-- What PARSE needs of a code table: every symbol with a count has a code, no other symbol has one, and no code begins
another. -/
structure ParseableCodes (freq : Vector Word 256) (code : Symbol → Code) : Prop where
  prefixFree : PrefixFree freq code
  ne_nil : ∀ y, entry freq y ≠ 0#32 → code y ≠ []
  absent : ∀ y, entry freq y = 0#32 → code y = []

theorem parseableCodes_codesOf {freq : Vector Word 256} (hfits : freqSum freq < 2 ^ 32)
    (hk : 2 ≤ distinctCount freq) : ParseableCodes freq (entry (codesOf freq)) where
  prefixFree := prefixFree_codesOf hfits hk
  ne_nil := fun _ hy => entry_codesOf_ne_nil hfits hk hy
  absent := fun _ hy => entry_codesOf_of_absent hfits hk hy

section
variable {freq : Vector Word 256} {code : Symbol → Code} (hc : ParseableCodes freq code)
include hc

theorem ParseableCodes.eq_of_begins {y z : Symbol} (hy : entry freq y ≠ 0#32) (hz : entry freq z ≠ 0#32)
    (h : code y <+: code z) : y = z := by_contra fun hne => hc.prefixFree y z hy hz hne h

/-! ## The matcher -/

/-- The matcher finds the one symbol of the table whose code the candidate is (R181). -/
theorem ParseableCodes.matchCode_eq_some_iff {cand : Code} (hcand : cand ≠ []) {y : Symbol} :
    matchCode code cand = some y ↔ entry freq y ≠ 0#32 ∧ code y = cand := by
  have hpresent : ∀ z, code z = cand → entry freq z ≠ 0#32 := fun z hz h0 => hcand (hz ▸ hc.absent z h0)
  have hfound : ∀ z, matchCode code cand = some z → code z = cand := fun z hz =>
    eq_of_beq (List.find?_some (p := fun y => code y == cand) hz)
  constructor
  · intro h
    exact ⟨hpresent y (hfound y h), hfound y h⟩
  · rintro ⟨hy, hcode⟩
    cases hm : matchCode code cand with
    | none => exact absurd (beq_iff_eq.2 hcode) (List.find?_eq_none.1 hm y (mem_symbols y))
    | some z =>
      have hz := hfound z hm
      rw [hc.eq_of_begins (hpresent z hz) hy ((hz.trans hcode.symm) ▸ List.prefix_rfl)]

theorem ParseableCodes.matchCode_eq_none {cand : Code} (hcand : cand ≠ [])
    (h : ∀ y, entry freq y ≠ 0#32 → code y ≠ cand) : matchCode code cand = none := by
  cases hm : matchCode code cand with
  | none => rfl
  | some y =>
    obtain ⟨hy, hcode⟩ := (hc.matchCode_eq_some_iff hcand).1 hm
    exact absurd hcode (h y hy)

/-! ## The loop -/

omit hc in
/-- Where no candidate has begun, its start does not matter. -/
theorem scanBits_start_irrel (total : Nat) (bits : Code) (j start start' : Nat) (out : List Symbol) :
    scanBits code total bits j start [] out = scanBits code total bits j start' [] out := by
  cases bits <;> simp [scanBits]

/-- The loop reads the rest of a code and emits its symbol, or stops where the code began. -/
theorem ParseableCodes.scanBits_code {y : Symbol} (hy : entry freq y ≠ 0#32) (total : Nat) (rest : Code) {c : Code}
    (hne : c ≠ []) {cand : Code} (hcode : code y = cand ++ c) (j start : Nat) (out : List Symbol) :
    scanBits code total (c ++ rest) j start cand out =
      if out.length = total then .error (if cand = [] then j else start)
      else scanBits code total rest (j + c.length) (if cand = [] then j else start) [] (out ++ [y]) := by
  induction c generalizing cand j start with
  | nil => exact absurd rfl hne
  | cons b c ih =>
    rw [List.cons_append, scanBits]
    rcases eq_or_ne c [] with rfl | hc'
    · have hmatch : matchCode code (cand ++ [b]) = some y :=
        (hc.matchCode_eq_some_iff (by simp)).2 ⟨hy, hcode⟩
      rw [hmatch]
      rfl
    · have hmore : code y = (cand ++ [b]) ++ c := by rw [hcode, List.append_assoc, List.singleton_append]
      have hnone : matchCode code (cand ++ [b]) = none := by
        refine hc.matchCode_eq_none (by simp) fun z hz hzc => ?_
        rw [← hzc] at hmore
        obtain rfl := hc.eq_of_begins hz hy ⟨c, hmore.symm⟩
        exact hc' (List.self_eq_append_right.1 hmore)
      rw [hnone]
      simp only [ih hc' hmore, List.append_eq_nil_iff, List.cons_ne_nil, and_false, if_false, List.length_cons,
        Nat.add_assoc, Nat.add_comm 1]

/-- The loop ends in a tail that no code begins: nothing is left only when the tail is empty. -/
theorem ParseableCodes.scanBits_tail (total : Nat) {tail cand : Code}
    (htail : ∀ y, entry freq y ≠ 0#32 → ¬ code y <+: cand ++ tail) (j start : Nat) (out : List Symbol) :
    scanBits code total tail j start cand out =
      if cand ++ tail ≠ [] then .error (if cand = [] then j else start)
      else if out.length ≠ total then .error j
      else .ok out := by
  induction tail generalizing cand j start with
  | nil => cases cand <;> simp [scanBits]
  | cons b tail ih =>
    have hsplit : cand ++ b :: tail = (cand ++ [b]) ++ tail := by simp
    have hnone : matchCode code (cand ++ [b]) = none :=
      hc.matchCode_eq_none (by simp) fun y hy hcode => htail y hy ⟨tail, by rw [hcode, hsplit]⟩
    rw [hsplit] at htail ⊢
    rw [scanBits, hnone]
    simp only [ih htail]
    simp

/-- The loop reads codes for as long as TOTAL allows, and emits their symbols. -/
theorem ParseableCodes.scanBits_codes {total : Nat} {syms : List Symbol} (hsyms : ∀ y ∈ syms, entry freq y ≠ 0#32)
    (rest : Code) (j start : Nat) {out : List Symbol} (hroom : out.length + syms.length ≤ total) :
    scanBits code total (syms.flatMap code ++ rest) j start [] out =
      scanBits code total rest (j + (syms.flatMap code).length) start [] (out ++ syms) := by
  induction syms generalizing j start out with
  | nil => simp
  | cons y syms ih =>
    obtain ⟨hy, hsyms⟩ := List.forall_mem_cons.1 hsyms
    rw [List.length_cons] at hroom
    rw [List.flatMap_cons, List.append_assoc,
      hc.scanBits_code hy total _ (hc.ne_nil y hy) (List.nil_append _).symm, if_neg (by omega),
      ih hsyms _ _ (by simp; omega), scanBits_start_irrel total rest _ _ start, List.length_append, Nat.add_assoc,
      List.append_assoc, List.singleton_append]

/-- One code more than TOTAL is malformed where it begins (R220). -/
theorem ParseableCodes.scanBits_excess {total : Nat} {syms : List Symbol} (hsyms : ∀ y ∈ syms, entry freq y ≠ 0#32)
    (hmany : total < syms.length) (tail : Code) :
    scanBits code total (syms.flatMap code ++ tail) 0 0 [] [] =
      .error ((syms.take total).flatMap code).length := by
  have hsplit : syms.flatMap code ++ tail =
      (syms.take total).flatMap code ++ (code syms[total] ++ ((syms.drop (total + 1)).flatMap code ++ tail)) := by
    conv_lhs => rw [← List.take_append_drop total syms, List.drop_eq_getElem_cons hmany]
    rw [List.flatMap_append, List.flatMap_cons, List.append_assoc, List.append_assoc]
  have hy := hsyms _ (List.getElem_mem hmany)
  have htake : (syms.take total).length = total := List.length_take_of_le hmany.le
  rw [hsplit, hc.scanBits_codes (fun y hy => hsyms y (List.mem_of_mem_take hy)) _ 0 0 (by simp [htake]),
    hc.scanBits_code hy total _ (hc.ne_nil _ hy) (List.nil_append _).symm]
  simp [htake]

/-- Otherwise the tail decides, and then the number of symbols. -/
theorem ParseableCodes.scanBits_stream {total : Nat} {syms : List Symbol} (hsyms : ∀ y ∈ syms, entry freq y ≠ 0#32)
    (hroom : syms.length ≤ total) {tail : Code} (htail : ∀ y, entry freq y ≠ 0#32 → ¬ code y <+: tail) :
    scanBits code total (syms.flatMap code ++ tail) 0 0 [] [] =
      if tail ≠ [] ∨ syms.length ≠ total then .error (syms.flatMap code).length else .ok syms := by
  rw [hc.scanBits_codes hsyms tail 0 0 (by simpa using hroom), hc.scanBits_tail total (cand := []) htail]
  by_cases h : tail = [] <;> simp [h]

end

/-! ## The tree walk -/

theorem treeWalk_cons (node : NodeIdx → Node) (root : NodeIdx) (total : Nat) (b : Bool) (rest : Code) (j start : Nat)
    (pos : NodeIdx) (out : List Symbol) :
    treeWalk node root total (b :: rest) j start pos out =
      if (node (childOn (node pos) b)).isLeaf then
        if out.length = total then .error (if pos = root then j else start)
        else
          treeWalk node root total rest (j + 1) (if pos = root then j else start) root
            (out ++ [(node (childOn (node pos) b)).sym])
      else
        treeWalk node root total rest (j + 1) (if pos = root then j else start) (childOn (node pos) b) out := rfl

/-- The matcher's candidate is the path to the walk's node, so both see a code end at the same bit (R182). -/
theorem scanBits_eq_treeWalk {freq : Vector Word 256} {code : Symbol → Code} (hc : ParseableCodes freq code)
    {node : NodeIdx → Node} {root : NodeIdx}
    (hleads : ∀ y p, LeadsTo node root p y ↔ entry freq y ≠ 0#32 ∧ code y = p)
    (hroot : ∀ p m, follow node root p = some m → (m = root ↔ p = [])) (total : Nat) (bits : Code) (j start : Nat)
    {cand : Code} {pos : NodeIdx} (hpos : follow node root cand = some pos) (hinner : (node pos).isLeaf = false)
    (hinner₀ : (node root).isLeaf = false) (out : List Symbol) :
    scanBits code total bits j start cand out = treeWalk node root total bits j start pos out := by
  induction bits generalizing j start cand pos out with
  | nil => simp only [scanBits, treeWalk, ne_eq, hroot cand pos hpos]
  | cons b bits ih =>
    have hchild : follow node root (cand ++ [b]) = some (childOn (node pos) b) := by
      rw [follow_append hpos, follow_cons_of_internal hinner, follow_nil]
    rw [scanBits, treeWalk_cons]
    simp only [hroot cand pos hpos]
    cases hleaf : (node (childOn (node pos) b)).isLeaf with
    | true =>
      have hmatch : matchCode code (cand ++ [b]) = some (node (childOn (node pos) b)).sym :=
        (hc.matchCode_eq_some_iff (by simp)).2 ((hleads _ _).1 ⟨_, hchild, hleaf, rfl⟩)
      rw [hmatch]
      simp only [if_true, ih _ _ (follow_nil node root) hinner₀]
    | false =>
      have hnone : matchCode code (cand ++ [b]) = none := by
        refine hc.matchCode_eq_none (by simp) fun y hy hcode => ?_
        obtain ⟨m, hm, hmleaf, -⟩ := (hleads y _).2 ⟨hy, hcode⟩
        obtain rfl := Option.some.inj (hchild.symm.trans hm)
        simp [hleaf] at hmleaf
      rw [hnone]
      simp only [ih _ _ hchild hleaf, Bool.false_eq_true, if_false]

/-- Settles O45: PARSE's candidate is always the path from the root to the walk's node. -/
theorem matcherEqualsTreeWalk : Obligations.MatcherEqualsTreeWalk := by
  unfold Obligations.MatcherEqualsTreeWalk
  intro s r hok htree hcodes hvalid hk hr total bits
  have hk' : 2 ≤ distinctCount s.freq := hok.2 ▸ hk
  obtain ⟨htvalid, hholds⟩ := hcodes hvalid
  have htree := htree htvalid
  obtain rfl := eq_rootIndex hok.fits (htree.2.1.symm.trans hr)
  have hdown := descending_treeArena hok.fits
  have hsame := htree.nodeAt_of_le_root (by omega)
  have hroot : ∀ p m, follow s.nodeAt (rootIndex s.freq) p = some m → (m = rootIndex s.freq ↔ p = []) := by
    intro p m hm
    rw [follow_congr hdown hsame] at hm
    have hle := hdown.follow_le hm
    constructor
    · rintro rfl
      exact List.length_eq_zero_iff.1 (by omega)
    · rintro rfl
      exact (Option.some.inj hm).symm
  have hinner : (s.nodeAt (rootIndex s.freq)).isLeaf = false := by
    rw [hsame _ le_rfl, rootNode_internal hok.fits hk']
  rw [hholds.codeAt]
  exact scanBits_eq_treeWalk (parseableCodes_codesOf hok.fits hk') (fun y p => htree.leadsTo_iff hok.fits hk') hroot
    total bits 0 0 (follow_nil _ _) hinner hinner []

/-! ## The outcomes of PARSE -/

theorem parseBody_of_no_codes {s : State} (h : s.codesValid = false) :
    parseBody s = .raised s.dropOutput .notReady 0#32 := by
  rw [parseBody, if_neg (Bool.eq_false_iff.1 h)]

section
variable {s : State} (hvalid : s.codesValid = true) (hblen : s.blen.toNat ≤ s.params.bitCap)
include hvalid hblen

theorem parseBody_of_empty_table (hk : s.ndistinct = 0#9) :
    parseBody s =
      if s.blen = 0#32 then .ok s.dropOutput else .raised s.dropOutput .invalidFrequencyTable s.blen := by
  rw [parseBody, if_pos hvalid, if_neg (Nat.not_lt.2 hblen), if_pos hk]

theorem parseBody_of_total_over (hk : s.ndistinct ≠ 0#9) (hover : s.params.symCap < s.total.toNat) :
    parseBody s = .raised s.dropOutput .capacityExceeded s.total := by
  rw [parseBody, if_pos hvalid, if_neg (Nat.not_lt.2 hblen), if_neg hk, if_pos hover]

variable (htotal : s.total.toNat ≤ s.params.symCap) (hk : 2 ≤ s.ndistinct.toNat)
include htotal hk

omit hvalid in
/-- With two symbols or more in the table the checks before the loop all pass (R180). -/
theorem parse_checks_pass : s.ndistinct ≠ 0#9 ∧ s.ndistinct ≠ 1#9 ∧ ¬ s.params.bitCap < s.blen.toNat ∧
    ¬ s.params.symCap < s.total.toNat :=
  ⟨fun h => by simp [h] at hk, fun h => by simp [h] at hk, Nat.not_lt.2 hblen, Nat.not_lt.2 htotal⟩

theorem parseBody_of_scan_error {idx : Nat}
    (h : scanBits s.codeAt s.total.toNat s.streamBits 0 0 [] [] = .error idx) :
    parseBody s = .raised s.voidOutput .malformedStream (BitVec.ofNat 32 idx) := by
  obtain ⟨hzero, hone, hbits, hsyms⟩ := parse_checks_pass hblen htotal hk
  rw [parseBody, if_pos hvalid, if_neg hbits, if_neg hzero, if_neg hsyms, if_neg hone, h]

theorem parseBody_of_scan_ok {out : List Symbol}
    (h : scanBits s.codeAt s.total.toNat s.streamBits 0 0 [] [] = .ok out) :
    parseBody s = .ok (s.setOutput out) := by
  obtain ⟨hzero, hone, hbits, hsyms⟩ := parse_checks_pass hblen htotal hk
  rw [parseBody, if_pos hvalid, if_neg hbits, if_neg hzero, if_neg hsyms, if_neg hone, h]

end

/-- Settles O42, by the checks of R180 in their order. -/
theorem parseChecksInOrder : Obligations.ParseChecksInOrder := by
  unfold Obligations.ParseChecksInOrder
  intro s
  rw [exec_parse]
  refine ⟨fun hno => congrArg Body.finish (parseBody_of_no_codes hno),
    fun hvalid hover => congrArg Body.finish (parseBody_of_blen_over hvalid hover),
    fun hvalid hblen hk => ?_,
    fun hvalid hblen hk hover => congrArg Body.finish (parseBody_of_total_over hvalid hblen hk hover)⟩
  rw [parseBody_of_empty_table hvalid hblen hk]
  refine ⟨fun hzero => ?_, fun hne => ?_⟩
  · rw [if_pos hzero]
    rfl
  · rw [if_neg hne]
    rfl

/-! ## The stream and the output -/

@[simp] theorem State.streamBits_length (s : State) : s.streamBits.length = s.blen.toNat := by
  simp [State.streamBits]

/-- An output as long as TOTAL makes OLEN TOTAL. -/
theorem State.setOutput_of_length {s : State} {out : List Symbol} {n : Word} (h : out.length = n.toNat) :
    s.setOutput out = { s with symOut := Memory.writeFrom s.symOut 0 out, olen := n } := by
  rw [State.setOutput, h, BitVec.ofNat_toNat, BitVec.setWidth_eq]

theorem Memory.read_writeFrom_zero_of_lt {α : Type} (m : Memory α) {vs : List α} {i : Nat} (hi : i < vs.length) :
    Memory.read (Memory.writeFrom m 0 vs) i = vs[i]? := by
  rw [Memory.read_writeFrom, if_pos (by omega), Nat.sub_zero]

theorem Memory.read_writeFrom_zero_of_ge {α : Type} (m : Memory α) {vs : List α} {i : Nat} (hi : vs.length ≤ i) :
    Memory.read (Memory.writeFrom m 0 vs) i = Memory.read m i := by
  rw [Memory.read_writeFrom, if_neg (by omega)]

/-- Settles O44: the loop reads the codes one by one, and stops at the excess code, in the tail, or at the end. -/
theorem parseReadsTheCodes : Obligations.ParseReadsTheCodes := by
  unfold Obligations.ParseReadsTheCodes
  intro s syms tail hok hcodes hvalid hk hblen htotal hsyms htail hstream
  have hc : ParseableCodes s.freq s.codeAt := by
    rw [State.HoldsCodes.codeAt (hcodes hvalid).2]
    exact parseableCodes_codesOf hok.fits (hok.2 ▸ hk)
  have raises {idx : Nat} (h : scanBits s.codeAt s.total.toNat s.streamBits 0 0 [] [] = .error idx) :
      exec .parse s = .next (s.voidOutput.raise .malformedStream (BitVec.ofNat 32 idx)) :=
    congrArg Body.finish (parseBody_of_scan_error hvalid hblen htotal hk h)
  refine ⟨fun hmany => ?_, fun hroom hne => ?_, fun hfew hnil => ?_, fun hlen hnil => ?_⟩
  · exact raises (by rw [hstream, hc.scanBits_excess hsyms hmany])
  · exact raises (by rw [hstream, hc.scanBits_stream hsyms hroom htail, if_pos (.inl hne)])
  · have hend : (syms.flatMap s.codeAt).length = s.blen.toNat := by
      rw [← s.streamBits_length, hstream, hnil, List.append_nil]
    rw [raises (by rw [hstream, hc.scanBits_stream hsyms hfew.le htail, if_pos (.inr hfew.ne)]), hend,
      BitVec.ofNat_toNat, BitVec.setWidth_eq]
    rfl
  · have hbody := parseBody_of_scan_ok hvalid hblen htotal hk
      (by rw [hstream, hc.scanBits_stream hsyms hlen.le htail, if_neg (by simp [hnil, hlen])])
    rw [State.setOutput_of_length hlen] at hbody
    exact ⟨_, congrArg Body.finish hbody,
      fun i hi => Memory.read_writeFrom_zero_of_lt s.symOut (hlen ▸ hi),
      fun i hi => Memory.read_writeFrom_zero_of_ge s.symOut (hlen ▸ hi)⟩

end Sys2Proof.Machine
end

section
/-! SUPPORT. ENCODE and DECODE (43_encoder.md R161 to R163, 44_decoder.md R184 to R186): the states between their parts,
the stream ENCODE leaves, and PARSE of it. -/

namespace Sys2Proof.Machine

open Sys2Proof.Claims

/-! ## Counts of a symbol sequence -/

/-- A sum over a sequence counts each symbol as often as it occurs. -/
theorem sum_map_eq_sum_count (syms : List Symbol) (f : Symbol → Nat) :
    (syms.map f).sum = (symbols.map fun y => syms.count y * f y).sum := by
  have hsub : syms.toFinset ⊆ symbols.toFinset := fun y _ => List.mem_toFinset.2 (mem_symbols y)
  rw [Finset.sum_list_map_count, ← List.sum_toFinset _ symbols_nodup]
  refine Finset.sum_subset hsub fun y _ hy => ?_
  rw [List.count_eq_zero_of_not_mem (mt List.mem_toFinset.2 hy), zero_nsmul]

section
variable {syms : List Symbol} (hlen : syms.length < 2 ^ 32)
include hlen

theorem freqSum_countTable : freqSum (countTable syms) = syms.length := by
  have h := sum_map_eq_sum_count syms fun _ => 1
  simp only [List.map_const', List.sum_replicate, smul_eq_mul, Nat.mul_one] at h
  simp only [freqSum, entry_countTable_toNat hlen, h]

theorem entry_countTable_ne_zero_iff {y : Symbol} : entry (countTable syms) y ≠ 0#32 ↔ y ∈ syms := by
  rw [Ne, BitVec.toNat_eq, entry_countTable_toNat hlen]
  simp [List.count_eq_zero]

/-- R161: the length of the stream of an input is the weighted length of its table. -/
theorem length_flatMap_eq_weightedLength (c : Symbol → Code) :
    (syms.flatMap c).length = weightedLength (countTable syms) c := by
  rw [List.length_flatMap, sum_map_eq_sum_count]
  simp only [weightedLength, entry_countTable_toNat hlen]

end

/-! ## The codes of any table -/

/-- Every symbol of a table has a code, also where it is the only one (R145). -/
theorem entry_codesOf_ne_nil_of_present {freq : Vector Word 256} (hfits : freqSum freq < 2 ^ 32) {y : Symbol}
    (hy : entry freq y ≠ 0#32) : entry (codesOf freq) y ≠ [] := by
  rcases Nat.lt_trichotomy (distinctCount freq) 1 with hk | hk | hk
  · have hmem := mem_tableSymbols.2 hy
    rw [← tableSymbols_length, Nat.lt_one_iff, List.length_eq_zero_iff] at hk
    simp [hk] at hmem
  · rw [codesOf_of_tableSymbols_singleton (tableSymbols_eq_singleton hk hy), entry_codeTableOf_singleton, if_pos rfl]
    exact List.cons_ne_nil _ _
  · exact entry_codesOf_ne_nil hfits hk hy

/-! ## The states between the parts -/

/-- The state after FREQ_COUNT (R102). -/
def State.counted (s : State) : State :=
  s.setFreq (countTable s.inputSymbols) s.ilen (BitVec.ofNat 9 (countDistinct s.inputSymbols))

/-- The state after BUILD (41_tree_builder.md R120). -/
def State.built (s : State) : State := s.setTree (treeArena s.freq) (treeRoot s.freq)

/-- The state after BUILD and GEN, with the codes of FREQ (R126). -/
def State.coded (s : State) : State :=
  s.built.setCodes (codesOf s.freq) (BitVec.ofNat 9 (longestCode (codesOf s.freq)))

theorem buildBody_eq (s : State) : buildBody s = .ok s.built := rfl

theorem State.holdsTree_built (s : State) : s.built.HoldsTree := s.holdsTree_setTree

theorem State.holdsTree_coded (s : State) : s.coded.HoldsTree := s.holdsTree_setTree

theorem State.holdsCodes_coded (s : State) : s.coded.HoldsCodes := s.built.holdsCodes_setCodes

theorem State.coded_codeAt (s : State) : s.coded.codeAt = entry (codesOf s.freq) := s.holdsCodes_coded.codeAt

theorem State.read_coded_nodes_of_ge (s : State) {i : Nat} (hi : (treeArena s.freq).length ≤ i) :
    Memory.read s.coded.nodes i = Memory.read s.nodes i := s.read_setTree_of_ge hi

theorem genBody_built {s : State} (hfits : freqSum s.freq < 2 ^ 32) : genBody s.built = .ok s.coded :=
  genBody_of_holdsTree rfl s.holdsTree_built hfits

theorem State.inputSymbols_length_lt (s : State) : s.inputSymbols.length < 2 ^ 32 :=
  s.inputSymbols_length ▸ s.ilen.isLt

theorem State.freqOk_counted (s : State) : s.counted.FreqOk := by
  have hlen := s.inputSymbols_length_lt
  refine ⟨?_, ?_⟩
  · exact (s.inputSymbols_length.symm.trans (freqSum_countTable hlen).symm)
  · exact (countDistinct_toNat _).trans (distinctCount_countTable hlen).symm

theorem freqCountBody_of_fits {s : State} (h : s.ilen.toNat ≤ s.params.symCap) : freqCountBody s = .ok s.counted := by
  rw [freqCountBody, if_neg (Nat.not_lt.2 h)]
  rfl

/-! ## ENCODE -/

theorem exec_encode (s : State) : exec .encode s = (encodeBody s).finish := rfl

theorem encodeBody_of_ilen_over {s : State} (h : s.params.symCap < s.ilen.toNat) :
    encodeBody s = .raised s.dropStream .capacityExceeded s.ilen := by
  rw [encodeBody, freqCountBody, if_pos h]
  rfl

/-- ENCODE of an input within SYM_CAP ends as MAP with the input's own codes (R162). -/
theorem encodeBody_of_fits {s : State} (h : s.ilen.toNat ≤ s.params.symCap) :
    encodeBody s = (mapBody s.counted.coded).cleanup State.dropStream := by
  rw [encodeBody, freqCountBody_of_fits h, Body.andThen_ok, buildBody_eq, Body.andThen_ok,
    genBody_built s.freqOk_counted.fits, Body.andThen_ok]

/-- R163: no symbol of the input is without a code. -/
theorem State.code_ne_nil_of_mem_input (s : State) : ∀ z ∈ s.inputSymbols, s.counted.coded.codeAt z ≠ [] := by
  intro z hz
  rw [State.coded_codeAt]
  exact entry_codesOf_ne_nil_of_present s.freqOk_counted.fits
    ((entry_countTable_ne_zero_iff s.inputSymbols_length_lt).2 hz)

/-- The stream of the input under its own codes. -/
def State.ownStream (s : State) : Code := s.inputSymbols.flatMap (entry (codesOf (countTable s.inputSymbols)))

/-- What ENCODE leaves when the stream fits. -/
def State.encoded (s : State) : State :=
  (s.counted.coded.setStream (packWords s.ownStream) (BitVec.ofNat 32 s.ownStream.length)).complete

section
variable {s : State} (hilen : s.ilen.toNat ≤ s.params.symCap)
include hilen

theorem exec_encode_of_fits (hfits : s.ownStream.length ≤ s.params.bitCap) : exec .encode s = .next s.encoded := by
  have hmap := mapSymbols_of_fits (cap := s.params.bitCap) s.code_ne_nil_of_mem_input
    (by rw [State.coded_codeAt]; exact hfits)
  rw [State.coded_codeAt] at hmap
  rw [exec_encode, encodeBody_of_fits hilen, mapBody_of_ok (s := s.counted.coded) rfl hilen
    (c := s.ownStream) (by rw [State.coded_codeAt]; exact hmap)]
  rfl

theorem exec_encode_of_map_error {e : ErrorKind × Nat}
    (h : mapSymbols (entry (codesOf (countTable s.inputSymbols))) s.params.bitCap s.inputSymbols 0 0 = .error e) :
    exec .encode s = .next (s.counted.coded.voidStream.raise e.1 (BitVec.ofNat 32 e.2)) := by
  rw [exec_encode, encodeBody_of_fits hilen, mapBody_of_error (s := s.counted.coded) rfl hilen
    (e := e) (by rw [State.coded_codeAt]; exact h)]
  rfl

end

/-! ## The stream ENCODE leaves -/

theorem State.streamBit_setStream (s : State) (bits : Code) (len : Word) {j : Nat} (hj : j < bits.length) :
    (s.setStream (packWords bits) len).streamBit j = bits[j] := by
  rw [State.streamBit, State.setStream_bits, read_writeFrom_packWords_of_lt s.bits (by omega), Option.getD_some,
    wordBit_packWord, List.getD_eq_getElem bits false hj]

/-- Packed bits read back as the stream they came from. -/
theorem State.streamBits_setStream (s : State) {bits : Code} (hbits : bits.length < 2 ^ 32) :
    (s.setStream (packWords bits) (BitVec.ofNat 32 bits.length)).streamBits = bits := by
  have hlen : (s.setStream (packWords bits) (BitVec.ofNat 32 bits.length)).streamBits.length = bits.length := by
    rw [State.streamBits_length, State.setStream_blen, BitVec.toNat_ofNat, Nat.mod_eq_of_lt hbits]
  refine List.ext_getElem hlen fun j _ hj => ?_
  simp only [State.streamBits, List.getElem_map, List.getElem_range, s.streamBit_setStream bits _ hj]

/-- Two instances with the same BLEN and the same words of BITS below it, all with values, hold the same stream. -/
theorem State.streamBits_congr {s u : State} {n : Nat} (hn : u.blen.toNat ≤ n)
    (hread : ∀ w, w < (n + 31) / 32 → Memory.read u.bits w = Memory.read s.bits w)
    (hvalue : ∀ w, w < (n + 31) / 32 → Memory.read s.bits w ≠ none) :
    u.streamBits = (List.range u.blen.toNat).map s.streamBit := by
  refine List.map_congr_left fun j hj => ?_
  have hw : j / 32 < (n + 31) / 32 := by
    have := List.mem_range.1 hj
    omega
  obtain ⟨v, hv⟩ := Option.ne_none_iff_exists'.1 (hvalue _ hw)
  rw [State.streamBit, State.streamBit, hread _ hw, hv, Option.getD_some, Option.getD_some]

section
variable {s : State} (hlegal : s.params.legal = true) (hfits : s.ownStream.length ≤ s.params.bitCap)
include hlegal hfits

theorem State.ownStream_length_lt : s.ownStream.length < 2 ^ 32 := hfits.trans_lt (Params.legal_bitCap_lt hlegal)

theorem State.encoded_blen_toNat : s.encoded.blen.toNat = s.ownStream.length :=
  Nat.mod_eq_of_lt (State.ownStream_length_lt hlegal hfits)

theorem State.encoded_streamBits : s.encoded.streamBits = s.ownStream :=
  s.counted.coded.streamBits_setStream (State.ownStream_length_lt hlegal hfits)

end

theorem State.encoded_codeAt (s : State) : s.encoded.codeAt = entry (codesOf (countTable s.inputSymbols)) :=
  s.counted.coded_codeAt

/-- Settles O46: ENCODE ends as MAP after BUILD and GEN of the input's own table, and every symbol has a code. -/
theorem encodeCompletes : Obligations.EncodeCompletes := by
  unfold Obligations.EncodeCompletes
  intro s hlegal hilen hfits
  have hlen := s.inputSymbols_length_lt
  refine ⟨s.encoded, exec_encode_of_fits hilen hfits, rfl, fun y => entry_countTable_toNat hlen y, s.freqOk_counted,
    s.counted.holdsTree_coded, s.counted.holdsCodes_coded, ?_, fun i hi => s.counted.read_coded_nodes_of_ge hi, ?_, ?_,
    ?_⟩
  · rw [State.encoded_codeAt]
    exact State.encoded_streamBits hlegal hfits
  · rw [State.encoded_codeAt, State.encoded_blen_toNat hlegal hfits]
    exact fun w hw => ⟨_, read_writeFrom_packWords_of_lt s.bits hw, fun b hb => packWord_lsb _ w hb⟩
  · rw [State.encoded_blen_toNat hlegal hfits]
    exact fun w hw => read_writeFrom_packWords_of_ge s.bits hw
  · rw [State.encoded_codeAt, State.encoded_blen_toNat hlegal hfits]
    exact length_flatMap_eq_weightedLength hlen _

end Sys2Proof.Machine
end

section
/-! SUPPORT. ENCODE's errors, and DECODE of what ENCODE made (43_encoder.md R162, 44_decoder.md R184 to R186). -/

namespace Sys2Proof.Machine

open Sys2Proof.Claims

/-! ## How ENCODE can end -/

/-- ENCODE's loop ends without error only when the whole stream fits. -/
theorem ownStream_fits_of_mapSymbols_ok {s : State} {bits : Code}
    (h : mapSymbols (entry (codesOf (countTable s.inputSymbols))) s.params.bitCap s.inputSymbols 0 0 = .ok bits) :
    s.ownStream.length ≤ s.params.bitCap := by
  obtain ⟨rfl, -, hnil | hfits⟩ := mapSymbols_ok h
  · simp [State.ownStream, hnil]
  · rwa [Nat.zero_add] at hfits

/-- An ENCODE that records no error has encoded its whole input. -/
theorem encoded_of_no_error {s t : State} (h : exec .encode s = .next t) (ht : t.error = none) :
    s.ilen.toNat ≤ s.params.symCap ∧ s.ownStream.length ≤ s.params.bitCap ∧ t = s.encoded := by
  rcases Nat.lt_or_ge s.params.symCap s.ilen.toNat with hover | hilen
  · rw [exec_encode, encodeBody_of_ilen_over hover] at h
    obtain rfl := Host.Outcome.next.inj h
    cases ht
  · cases hmap : mapSymbols (entry (codesOf (countTable s.inputSymbols))) s.params.bitCap s.inputSymbols 0 0 with
    | error e =>
      rw [exec_encode_of_map_error hilen hmap] at h
      obtain rfl := Host.Outcome.next.inj h
      cases ht
    | ok bits =>
      have hfits := ownStream_fits_of_mapSymbols_ok hmap
      rw [exec_encode_of_fits hilen hfits] at h
      exact ⟨hilen, hfits, (Host.Outcome.next.inj h).symm⟩

/-- Settles O47, by R162's two checks: the length of the input before anything is written, and the loop of MAP. -/
theorem encodeCapacityErrors : Obligations.EncodeCapacityErrors := by
  unfold Obligations.EncodeCapacityErrors
  intro s hlegal
  refine ⟨fun hover => congrArg Body.finish (encodeBody_of_ilen_over hover), fun hilen i hi hfits hover => ?_⟩
  have hy : s.inputSymbols[i]? = some (s.inputSymbols[i]'(s.inputSymbols_length ▸ hi)) :=
    List.getElem?_eq_getElem _
  have hne := s.code_ne_nil_of_mem_input
  rw [State.coded_codeAt] at hne
  rw [length_flatMap_take_succ hy] at hover
  have hmap := mapSymbols_error_at hy (fun z hz => hne z (List.mem_of_mem_take hz)) hfits
    (mapSymbols_cons_of_over (hne _ (List.getElem_mem _)) hover)
  exact ⟨_, exec_encode_of_map_error hilen hmap, rfl,
    fun y => entry_countTable_toNat s.inputSymbols_length_lt y, s.freqOk_counted, s.counted.holdsTree_coded,
    s.counted.holdsCodes_coded, fun j hj => s.counted.read_coded_nodes_of_ge hj⟩

/-! ## DECODE -/

/-- DECODE ends as PARSE with the codes of FREQ (R184). -/
theorem exec_decode_eq {s : State} (hfits : freqSum s.freq < 2 ^ 32) :
    exec .decode s = (parseBody s.coded).finish := by
  have hbody : decodeBody s = parseBody s.coded := by
    rw [decodeBody, buildBody_eq, Body.andThen_ok, genBody_built hfits, Body.andThen_ok]
  exact congrArg Body.finish hbody

/-- Settles O49: after BUILD and GEN the loop of PARSE reads the codes to the end of the stream. -/
theorem decodeCompletes : Obligations.DecodeCompletes := by
  unfold Obligations.DecodeCompletes
  intro s syms hok hk hblen htotal hlen hsyms hstream
  have hc := parseableCodes_codesOf hok.fits (hok.2 ▸ hk)
  have hscan : scanBits s.coded.codeAt s.coded.total.toNat s.coded.streamBits 0 0 [] [] = .ok syms := by
    have h := hc.scanBits_stream (tail := []) hsyms hlen.le fun y hy hnil =>
      hc.ne_nil y hy (List.prefix_nil.1 hnil)
    rw [List.append_nil, if_neg (by simp [hlen])] at h
    rw [State.coded_codeAt]
    exact (congrArg (fun b => scanBits _ s.total.toNat b 0 0 [] []) hstream).trans h
  have hbody := parseBody_of_scan_ok (s := s.coded) rfl hblen htotal hk hscan
  rw [State.setOutput_of_length (s := s.coded) hlen] at hbody
  exact ⟨_, (exec_decode_eq hok.fits).trans (congrArg Body.finish hbody), rfl, s.holdsTree_coded, s.holdsCodes_coded,
    fun i hi => s.read_coded_nodes_of_ge hi, fun i hi => Memory.read_writeFrom_zero_of_lt s.symOut (hlen ▸ hi),
    fun i hi => Memory.read_writeFrom_zero_of_ge s.symOut (hlen ▸ hi)⟩

/-- What the host reads after a DECODE that outputs `syms`. -/
def Outputs (u : State) (syms : List Symbol) : Prop :=
  ∃ v, exec .decode u = .next v ∧ v.error = u.error ∧ v.errIdx = u.errIdx ∧ v.olen = u.total ∧
    ∀ i, i < u.total.toNat → Memory.read v.symOut i = syms[i]?

section
variable {u : State} {syms : List Symbol} (hok : u.FreqOk) (hblen : u.blen.toNat ≤ u.params.bitCap)
  (hlen : syms.length = u.total.toNat) (hsyms : ∀ y ∈ syms, entry u.freq y ≠ 0#32)
include hok hblen hlen hsyms

/-- The empty table has no symbols, hence no stream (R180). -/
theorem outputs_of_empty_table (hk : u.ndistinct.toNat = 0)
    (hstream : u.streamBits = syms.flatMap (entry (codesOf u.freq))) : Outputs u syms := by
  have hnone : tableSymbols u.freq = [] :=
    List.length_eq_zero_iff.1 ((tableSymbols_length u.freq).trans (hok.2.symm.trans hk))
  obtain rfl : syms = [] := List.eq_nil_iff_forall_not_mem.2 fun y hy => by
    simpa [hnone] using mem_tableSymbols.2 (hsyms y hy)
  have htotal : u.total = 0#32 := BitVec.eq_of_toNat_eq hlen.symm
  have hzero : u.blen = 0#32 := BitVec.eq_of_toNat_eq (by rw [← u.streamBits_length, hstream]; rfl)
  have hbody := parseBody_of_empty_table (s := u.coded) rfl hblen (BitVec.eq_of_toNat_eq hk)
  rw [if_pos (show u.coded.blen = 0#32 from hzero)] at hbody
  exact ⟨_, (exec_decode_eq hok.fits).trans (congrArg Body.finish hbody), rfl, rfl, htotal.symm,
    fun i hi => by rw [htotal] at hi; exact absurd hi (Nat.not_lt_zero i)⟩

/-- One symbol is copied TOTAL times (R183). -/
theorem outputs_of_one_symbol (htotal : u.total.toNat ≤ u.params.symCap) (hk : u.ndistinct = 1#9) :
    Outputs u syms := by
  have hone : distinctCount u.freq = 1 := by rw [← hok.2, hk]; rfl
  have hbody := parseBody_of_one_symbol (s := u.coded) rfl hblen htotal hk
  have hcopies : List.replicate u.total.toNat u.coded.soleSymbol = syms := by
    refine (List.eq_replicate_iff.2 ⟨hlen, fun y hy => ?_⟩).symm
    have hcoded : u.coded.FreqOk := hok
    exact (hcoded.soleSymbol u.holdsCodes_coded hk (hsyms y hy)).symm
  have hout : u.coded.setOutput (List.replicate u.coded.total.toNat u.coded.soleSymbol) = u.coded.setOutput syms :=
    congrArg _ hcopies
  rw [hout, State.setOutput_of_length (s := u.coded) hlen] at hbody
  exact ⟨_, (exec_decode_eq hok.fits).trans (congrArg Body.finish hbody), rfl, rfl, rfl,
    fun i hi => Memory.read_writeFrom_zero_of_lt u.symOut (hlen ▸ hi)⟩

/-- DECODE of the codes of TOTAL symbols of the table outputs them, for a table of any size. -/
theorem outputs_of_stream (htotal : u.total.toNat ≤ u.params.symCap)
    (hstream : u.streamBits = syms.flatMap (entry (codesOf u.freq))) : Outputs u syms := by
  rcases Nat.lt_trichotomy u.ndistinct.toNat 1 with hk | hk | hk
  · exact outputs_of_empty_table hok hblen hlen hsyms (Nat.lt_one_iff.1 hk) hstream
  · exact outputs_of_one_symbol hok hblen hlen hsyms htotal (BitVec.eq_of_toNat_eq hk)
  · obtain ⟨v, hv, hframe, -, -, -, hread, -⟩ :=
      decodeCompletes u syms hok hk hblen htotal hlen hsyms hstream
    exact ⟨v, hv, by rw [hframe], by rw [hframe], by rw [hframe], hread⟩

end

/-! ## The receiver -/

/-- The words that hold the stream ENCODE left all have values. -/
theorem State.read_encoded_bits_ne_none {s : State} (hlegal : s.params.legal = true)
    (hfits : s.ownStream.length ≤ s.params.bitCap) {w : Nat} (hw : w < (s.encoded.blen.toNat + 31) / 32) :
    Memory.read s.encoded.bits w ≠ none := by
  rw [State.encoded_blen_toNat hlegal hfits] at hw
  intro hnone
  exact Option.some_ne_none _ ((read_writeFrom_packWords_of_lt s.bits hw).symm.trans hnone)

/-- `u` holds the table and the counts of what `s` encoded. -/
structure HoldsTableOf (s u : State) : Prop where
  freq : u.freq = countTable s.inputSymbols
  total : u.total = s.ilen
  ndistinct : u.ndistinct = s.counted.ndistinct

section
variable {s u : State} (h : HoldsTableOf s u)
include h

theorem HoldsTableOf.freqOk : u.FreqOk := by
  have hok := s.freqOk_counted
  rw [State.FreqOk, h.freq, h.total, h.ndistinct]
  exact hok

theorem HoldsTableOf.present : ∀ y ∈ s.inputSymbols, entry u.freq y ≠ 0#32 := fun y hy => by
  rw [h.freq]
  exact (entry_countTable_ne_zero_iff s.inputSymbols_length_lt).2 hy

theorem HoldsTableOf.ownStream_eq : s.ownStream = s.inputSymbols.flatMap (entry (codesOf u.freq)) := by
  rw [h.freq, State.ownStream]

theorem HoldsTableOf.length_eq : s.inputSymbols.length = u.total.toNat := by
  rw [s.inputSymbols_length, h.total]

end

theorem State.inputSymbols_getElem? (s : State) {i : Nat} (hi : i < s.ilen.toNat) :
    s.inputSymbols[i]? = some (s.symInAt i) := by
  simp [State.inputSymbols, hi]

/-- Settles O50: the receiver's stream is the codes of the input under its own table, which DECODE outputs. -/
theorem decodeInvertsEncode : Obligations.DecodeInvertsEncode := by
  unfold Obligations.DecodeInvertsEncode
  intro s t u hlegal _ hexec ht hfreq htotal hnd hblen hbits hsymCap hbitCap
  obtain ⟨-, hfits, rfl⟩ := encoded_of_no_error hexec ht
  have hu : HoldsTableOf s u := ⟨hfreq, htotal, hnd⟩
  have hstream : u.streamBits = s.inputSymbols.flatMap (entry (codesOf u.freq)) := by
    rw [← hu.ownStream_eq, ← State.encoded_streamBits hlegal hfits, State.streamBits_congr (by rw [hblen]) hbits
      (fun w hw => State.read_encoded_bits_ne_none hlegal hfits hw), hblen]
    rfl
  obtain ⟨v, hv, herr, hidx, holen, hread⟩ := outputs_of_stream hu.freqOk (hblen ▸ hbitCap) hu.length_eq hu.present
    (hu.total ▸ hsymCap) hstream
  refine ⟨v, hv, herr, hidx, holen.trans hu.total, fun i hi => ?_⟩
  rw [hread i (hu.total ▸ hi), s.inputSymbols_getElem? hi]

/-- A stream without its last bit is the codes of all symbols but the last and a part of the last code, which no code
begins (R186). -/
theorem exists_truncated_split {freq : Vector Word 256} {code : Symbol → Code} (hc : ParseableCodes freq code)
    {syms : List Symbol} (hsyms : ∀ y ∈ syms, entry freq y ≠ 0#32) {bits : Code} {x : Bool}
    (h : syms.flatMap code = bits ++ [x]) :
    ∃ (pre : List Symbol) (tail : Code), pre.length + 1 = syms.length ∧ (∀ y ∈ pre, entry freq y ≠ 0#32) ∧
      bits = pre.flatMap code ++ tail ∧ ∀ y, entry freq y ≠ 0#32 → ¬ code y <+: tail := by
  rcases List.eq_nil_or_concat' syms with rfl | ⟨pre, y, rfl⟩
  · simp at h
  · obtain ⟨hpre, hy⟩ := List.forall_mem_append.1 hsyms
    have hy := hy y List.mem_cons_self
    rcases List.eq_nil_or_concat' (code y) with hnil | ⟨tail, b, hcode⟩
    · exact absurd hnil (hc.ne_nil y hy)
    · rw [List.flatMap_append, List.flatMap_singleton, hcode, ← List.append_assoc] at h
      obtain ⟨hbits, -⟩ := List.append_inj' h rfl
      refine ⟨pre, tail, by simp, hpre, hbits.symm, fun z hz hztail => ?_⟩
      have hbegin : code z <+: code y := hcode ▸ hztail.trans (List.prefix_append tail [b])
      obtain rfl := hc.eq_of_begins hz hy hbegin
      have hle := hztail.length_le
      rw [hcode, List.length_append, List.length_singleton] at hle
      omega

/-- Settles O51: without its last bit the stream has one symbol fewer than TOTAL, so PARSE ends in an error. -/
theorem truncatedStreamIsMalformed : Obligations.TruncatedStreamIsMalformed := by
  unfold Obligations.TruncatedStreamIsMalformed
  intro s t u hlegal _ hexec ht hk hfreq htotal hnd hblen hbits hsymCap hbitCap
  obtain ⟨-, hfits, rfl⟩ := encoded_of_no_error hexec ht
  have hu : HoldsTableOf s u := ⟨hfreq, htotal, hnd⟩
  rw [← hnd] at hk
  have hc := parseableCodes_codesOf hu.freqOk.fits (hu.freqOk.2 ▸ hk)
  have hlast : s.inputSymbols.flatMap (entry (codesOf u.freq)) =
      u.streamBits ++ [s.encoded.streamBit u.blen.toNat] := by
    rw [← hu.ownStream_eq, ← State.encoded_streamBits hlegal hfits, State.streamBits, ← hblen, List.range_succ,
      List.map_append, State.streamBits_congr (n := s.encoded.blen.toNat) (by omega) hbits
      (fun w hw => State.read_encoded_bits_ne_none hlegal hfits hw)]
    rfl
  obtain ⟨pre, tail, hlen, hpre, hstream, htail⟩ := exists_truncated_split hc hu.present hlast
  rw [hu.length_eq] at hlen
  have hscan := hc.scanBits_stream (total := u.total.toNat) hpre (by omega) htail
  rw [if_pos (.inr (by omega)), ← hstream, ← State.coded_codeAt] at hscan
  have hbody := parseBody_of_scan_error (s := u.coded) rfl (by exact (by omega : u.blen.toNat ≤ u.params.bitCap))
    (hu.total ▸ hsymCap) hk hscan
  exact ⟨_, (exec_decode_eq hu.freqOk.fits).trans (congrArg Body.finish hbody), rfl, rfl, rfl⟩

end Sys2Proof.Machine
end

section
/-! SUPPORT. What every command keeps (45_control.md R202, R206): a command is its body and its completion, and a body
writes only the fields its rule names. -/

namespace Sys2Proof.Machine

/-! ## A command as its body -/

/-- The state a body leaves, with or without error. -/
def Body.state : Body → State
  | .ok s => s
  | .raised s _ _ => s

/-- The error a body raises. -/
def Body.kind : Body → Option ErrorKind
  | .ok _ => none
  | .raised _ k _ => some k

@[simp] theorem Body.state_ok (s : State) : (Body.ok s).state = s := rfl

@[simp] theorem Body.state_raised (s : State) (k : ErrorKind) (x : Word) : (Body.raised s k x).state = s := rfl

@[simp] theorem Body.kind_ok (s : State) : (Body.ok s).kind = none := rfl

@[simp] theorem Body.kind_raised (s : State) (k : ErrorKind) (x : Word) : (Body.raised s k x).kind = some k := rfl

@[simp] theorem Body.kind_cleanup (b : Body) (f : State → State) : (b.cleanup f).kind = b.kind := by
  cases b <;> rfl

/-- The body of each command (R202). -/
def bodyOf : Instr → State → Body
  | .nop => .ok
  | .clear => fun s => .ok s.clearDerived
  | .freqSet y => freqSetBody y
  | .freqCount => freqCountBody
  | .build => buildBody
  | .gen => genBody
  | .map => mapBody
  | .parse => parseBody
  | .encode => encodeBody
  | .decode => decodeBody

theorem exec_eq_bodyOf (i : Instr) (s : State) : exec i s = (bodyOf i s).finish := by cases i <;> rfl

/-- Completion writes PENDING and DONE, and the error record only where the body raises (R202). -/
theorem Body.finish_eq (b : Body) : ∃ t, b.finish = .next t ∧ ∃ e x,
    t = { b.state with error := e, errIdx := x, pending := none, done := true } ∧
    ((b.kind = none ∧ e = b.state.error ∧ x = b.state.errIdx) ∨ ∃ k, b.kind = some k ∧ e = some k) := by
  cases b with
  | ok s => exact ⟨_, rfl, s.error, s.errIdx, rfl, .inl ⟨rfl, rfl, rfl⟩⟩
  | raised s k x => exact ⟨_, rfl, some k, x, rfl, .inr ⟨k, rfl, rfl⟩⟩

/-- What a command that answers `t` has done: its body, then its completion. -/
theorem exec_cases {i : Instr} {s t : State} (h : exec i s = .next t) : ∃ e x,
    t = { (bodyOf i s).state with error := e, errIdx := x, pending := none, done := true } ∧
    (((bodyOf i s).kind = none ∧ e = (bodyOf i s).state.error ∧ x = (bodyOf i s).state.errIdx) ∨
      ∃ k, (bodyOf i s).kind = some k ∧ e = some k) := by
  obtain ⟨t', ht', hcases⟩ := (bodyOf i s).finish_eq
  rw [exec_eq_bodyOf, ht'] at h
  obtain rfl := Host.Outcome.next.inj h
  exact hcases

/-! ## What a body leaves -/

/-- A property of states that the first body leaves and every next one keeps is left by the sequence. -/
theorem Body.andThen_state {b : Body} {f : State → Body} {P : State → Prop} (hb : P b.state)
    (hf : ∀ s, P s → P (f s).state) : P (b.andThen f).state := by
  cases b with
  | ok s => exact hf s hb
  | raised s k x => exact hb

theorem Body.cleanup_state {b : Body} {f : State → State} {P : State → Prop} (hb : P b.state)
    (hf : ∀ s, P s → P (f s)) : P (b.cleanup f).state := by
  cases b with
  | ok s => exact hb
  | raised s k x => exact hf s hb

/-- The same for a view of the state that every body keeps. -/
theorem Body.andThen_keeps {α : Type} {g : State → α} {a : α} {b : Body} {f : State → Body} (hb : g b.state = a)
    (hf : ∀ s, g (f s).state = g s) : g (b.andThen f).state = a :=
  Body.andThen_state (P := fun s => g s = a) hb fun s hs => (hf s).trans hs

/-- FREQ_SET leaves the state, or a new table. -/
theorem freqSetBody_state (y : Symbol) (s : State) :
    (freqSetBody y s).state = s ∨ ∃ freq total nd, (freqSetBody y s).state = s.setFreq freq total nd := by
  rcases freqSetBody_cases y s with ⟨-, h⟩ | ⟨-, -, h⟩ | ⟨-, -, h⟩ <;> rw [h]
  · exact .inl rfl
  · exact .inl rfl
  · exact .inr ⟨_, _, _, rfl⟩

/-- FREQ_COUNT leaves the state, or a new table. -/
theorem freqCountBody_state (s : State) :
    (freqCountBody s).state = s ∨ ∃ freq total nd, (freqCountBody s).state = s.setFreq freq total nd := by
  rcases freqCountBody_cases s with ⟨-, h⟩ | ⟨-, h⟩ <;> rw [h]
  · exact .inl rfl
  · exact .inr ⟨_, _, _, rfl⟩

/-- GEN leaves the state, or a new code table. -/
theorem genBody_state (s : State) :
    (genBody s).state = s ∨ ∃ table ml, (genBody s).state = s.setCodes table ml := by
  rcases genBody_cases s with ⟨-, h⟩ | ⟨-, table, -, h⟩ <;> rw [h]
  · exact .inl rfl
  · exact .inr ⟨_, _, rfl⟩

/-- MAP writes BITS and BLEN alone. -/
theorem mapBody_state (s : State) : ∃ bits len, (mapBody s).state = { s with bits := bits, blen := len } := by
  rcases mapBody_cases s with ⟨-, h⟩ | ⟨-, -, h⟩ | ⟨-, -, ⟨c, -, h⟩ | ⟨e, -, h⟩⟩ <;> rw [h] <;> exact ⟨_, _, rfl⟩

/-- PARSE writes SYM_OUT and OLEN alone. -/
theorem parseBody_state (s : State) : ∃ out len, (parseBody s).state = { s with symOut := out, olen := len } := by
  rcases parseBody_cases s with ⟨-, h⟩ | ⟨-, -, h⟩ | ⟨-, -, ⟨-, -, h⟩ | ⟨-, -, h⟩ | ⟨-, -, h⟩ | ⟨-, -, h⟩ |
    ⟨-, -, -, ⟨out, -, h⟩ | ⟨idx, -, h⟩⟩⟩ <;> rw [h] <;> exact ⟨_, _, rfl⟩

/-! ## The frame of all commands (R206) -/

/-- The fields no command's body writes, the control record among them. -/
def State.hostSide (s : State) :
    (Params × Bool × Bool × Bool × Word × Word × Memory Symbol × List Turn × Nat × Option Word) ×
      Option ErrorKind × Word :=
  ((s.params, s.irqEn, s.overrun, s.accessErr, s.cmdLast, s.arg, s.symIn, s.agenda, s.draws, s.readData),
    s.error, s.errIdx)

/-- A view of the state that none of the writes of derived state changes. -/
structure Untouched {α : Type} (g : State → α) : Prop where
  setFreq : ∀ s freq total nd, g (s.setFreq freq total nd) = g s
  setTree : ∀ s arena root, g (s.setTree arena root) = g s
  setCodes : ∀ s table ml, g (s.setCodes table ml) = g s
  setBits : ∀ (s : State) bits len, g { s with bits := bits, blen := len } = g s
  setOut : ∀ (s : State) out len, g { s with symOut := out, olen := len } = g s

theorem untouched_hostSide : Untouched State.hostSide :=
  ⟨fun _ _ _ _ => rfl, fun _ _ _ => rfl, fun _ _ _ => rfl, fun _ _ _ => rfl, fun _ _ _ => rfl⟩

theorem untouched_ilen : Untouched State.ilen :=
  ⟨fun _ _ _ _ => rfl, fun _ _ _ => rfl, fun _ _ _ => rfl, fun _ _ _ => rfl, fun _ _ _ => rfl⟩

section
variable {α : Type} {g : State → α} (hg : Untouched g)
include hg

theorem Untouched.freqSetBody (y : Symbol) (s : State) : g (freqSetBody y s).state = g s := by
  rcases freqSetBody_state y s with h | ⟨freq, total, nd, h⟩ <;> rw [h]
  exact hg.setFreq s freq total nd

theorem Untouched.freqCountBody (s : State) : g (freqCountBody s).state = g s := by
  rcases freqCountBody_state s with h | ⟨freq, total, nd, h⟩ <;> rw [h]
  exact hg.setFreq s freq total nd

theorem Untouched.genBody (s : State) : g (genBody s).state = g s := by
  rcases genBody_state s with h | ⟨table, ml, h⟩ <;> rw [h]
  exact hg.setCodes s table ml

theorem Untouched.mapBody (s : State) : g (mapBody s).state = g s := by
  obtain ⟨bits, len, h⟩ := mapBody_state s
  rw [h, hg.setBits]

theorem Untouched.parseBody (s : State) : g (parseBody s).state = g s := by
  obtain ⟨out, len, h⟩ := parseBody_state s
  rw [h, hg.setOut]

theorem Untouched.buildBody (s : State) : g (buildBody s).state = g s := hg.setTree s _ _

theorem Untouched.encodeBody (s : State) : g (encodeBody s).state = g s :=
  Body.cleanup_state (P := fun t => g t = g s)
    (Body.andThen_keeps (Body.andThen_keeps (Body.andThen_keeps (hg.freqCountBody s) hg.buildBody) hg.genBody)
      hg.mapBody)
    fun t ht => (hg.setBits t t.bits 0#32).trans ht

theorem Untouched.decodeBody (s : State) : g (decodeBody s).state = g s :=
  Body.andThen_keeps (Body.andThen_keeps (hg.buildBody s) hg.genBody) hg.parseBody

/-- No body but CLEAR's changes such a view. -/
theorem Untouched.bodyOf {i : Instr} (hi : i ≠ .clear) (s : State) : g (bodyOf i s).state = g s := by
  cases i with
  | nop => rfl
  | clear => exact absurd rfl hi
  | freqSet y => exact hg.freqSetBody y s
  | freqCount => exact hg.freqCountBody s
  | build => exact hg.buildBody s
  | gen => exact hg.genBody s
  | map => exact hg.mapBody s
  | parse => exact hg.parseBody s
  | encode => exact hg.encodeBody s
  | decode => exact hg.decodeBody s

end

theorem bodyOf_hostSide (i : Instr) (s : State) : (bodyOf i s).state.hostSide = s.hostSide := by
  rcases eq_or_ne i .clear with rfl | hi
  · rfl
  · exact untouched_hostSide.bodyOf hi s

/-! ## The obligations -/

/-- Settles O7: the completion empties PENDING and sets DONE, and a body leaves the error record alone. -/
theorem everyCommandCompletes : Obligations.EveryCommandCompletes := by
  unfold Obligations.EveryCommandCompletes
  intro i s
  obtain ⟨t, ht, e, x, rfl, hcases⟩ := (bodyOf i s).finish_eq
  refine ⟨_, (exec_eq_bodyOf i s).trans ht, rfl, rfl, ?_⟩
  have hkept := congrArg Prod.snd (bodyOf_hostSide i s)
  simp only [State.hostSide, Prod.mk.injEq] at hkept
  obtain ⟨herr, hidx⟩ := hkept
  rcases hcases with ⟨-, rfl, rfl⟩ | ⟨k, -, rfl⟩
  · exact .inl ⟨herr, hidx⟩
  · exact .inr ⟨k, rfl⟩

/-- Settles O8: neither a body nor the completion writes a field of the host's side. -/
theorem commandsKeepTheHostSide : Obligations.CommandsKeepTheHostSide := by
  unfold Obligations.CommandsKeepTheHostSide
  intro i s t h
  obtain ⟨e, x, rfl, -⟩ := exec_cases h
  have hkept := congrArg Prod.fst (bodyOf_hostSide i s)
  simp only [State.hostSide, Prod.mk.injEq] at hkept
  obtain ⟨hparams, hirq, hover, hacc, hcmd, harg, hsym, hagenda, hdraws, hread⟩ := hkept
  exact ⟨hparams, hirq, hover, hacc, hcmd, harg, hsym, hagenda, hdraws, hread,
    fun hi => untouched_ilen.bodyOf hi s⟩

end Sys2Proof.Machine
end

section
/-! SUPPORT. Whole-machine rules of the commands: the validity flags (10_state.md R46, R47), the error kinds
(60_exceptions.md R220), stale tables (70_reset_and_hazards.md R257), and the first commands after reset (R252). -/

namespace Sys2Proof.Machine

open Sys2Proof.Claims

/-! ## GEN and DECODE in any state -/

/-- The state after GEN, from a valid tree (42_code_table.md R140). -/
def State.generated (s : State) : State :=
  s.setCodes (codeTableOf (codeAssignments s.nodeAt s.root))
    (BitVec.ofNat 9 (longestCode (codeTableOf (codeAssignments s.nodeAt s.root))))

theorem genBody_of_tree {s : State} (h : s.treeValid = true) : genBody s = .ok s.generated := if_pos h

theorem genBody_of_no_tree {s : State} (h : s.treeValid = false) : genBody s = .raised s .notReady 0#32 :=
  if_neg (Bool.eq_false_iff.1 h)

/-- BUILD leaves a valid tree, so DECODE always comes to PARSE (44_decoder.md R184). -/
theorem decodeBody_eq_parseBody (s : State) : decodeBody s = parseBody s.built.generated := by
  rw [decodeBody, buildBody_eq, Body.andThen_ok, genBody_of_tree rfl, Body.andThen_ok]

/-! ## The validity flags -/

/-- ENCODE leaves both flags as they are, or both set. -/
theorem encodeBody_flags (s : State) :
    ((encodeBody s).state.treeValid = s.treeValid ∧ (encodeBody s).state.codesValid = s.codesValid) ∨
      ((encodeBody s).state.treeValid = true ∧ (encodeBody s).state.codesValid = true) := by
  rcases Nat.lt_or_ge s.params.symCap s.ilen.toNat with hover | hilen
  · rw [encodeBody_of_ilen_over hover]
    exact .inl ⟨rfl, rfl⟩
  · rw [encodeBody_of_fits hilen]
    refine .inr (Body.cleanup_state (P := fun t => t.treeValid = true ∧ t.codesValid = true) ?_ fun t ht => ht)
    obtain ⟨bits, len, h⟩ := mapBody_state s.counted.coded
    rw [h]
    exact ⟨rfl, rfl⟩

theorem decodeBody_flags (s : State) :
    (decodeBody s).state.treeValid = true ∧ (decodeBody s).state.codesValid = true := by
  obtain ⟨out, len, h⟩ := parseBody_state s.built.generated
  rw [decodeBody_eq_parseBody, h]
  exact ⟨rfl, rfl⟩

theorem mapBody_flags (s : State) :
    (mapBody s).state.treeValid = s.treeValid ∧ (mapBody s).state.codesValid = s.codesValid := by
  obtain ⟨bits, len, h⟩ := mapBody_state s
  rw [h]
  exact ⟨rfl, rfl⟩

theorem parseBody_flags (s : State) :
    (parseBody s).state.treeValid = s.treeValid ∧ (parseBody s).state.codesValid = s.codesValid := by
  obtain ⟨out, len, h⟩ := parseBody_state s
  rw [h]
  exact ⟨rfl, rfl⟩

theorem genBody_flags (s : State) :
    (genBody s).state.treeValid = s.treeValid ∧
      ((genBody s).state.codesValid = s.codesValid ∨ (genBody s).state.codesValid = true) := by
  rcases genBody_state s with h | ⟨table, ml, h⟩ <;> rw [h]
  · exact ⟨rfl, .inl rfl⟩
  · exact ⟨rfl, .inr rfl⟩

/-- A command that writes FREQ without error leaves no valid table (R257). -/
def WritesFreq (i : Instr) : Prop := (∃ y, i = .freqSet y) ∨ i = .freqCount ∨ i = .clear

theorem flags_of_writesFreq {i : Instr} (hi : WritesFreq i) (s : State) :
    ((bodyOf i s).kind ≠ none ∧ (bodyOf i s).state = s) ∨
      ((bodyOf i s).state.treeValid = false ∧ (bodyOf i s).state.codesValid = false) := by
  rcases hi with ⟨y, rfl⟩ | rfl | rfl
  · rcases freqSetBody_cases y s with ⟨-, h⟩ | ⟨-, -, h⟩ | ⟨-, -, h⟩ <;> rw [bodyOf, h] <;> simp
  · rcases freqCountBody_cases s with ⟨-, h⟩ | ⟨-, h⟩ <;> rw [bodyOf, h] <;> simp
  · exact .inr ⟨rfl, rfl⟩

/-- Which bodies change TREE_VALID, and how (R46). -/
theorem bodyOf_treeValid (i : Instr) (s : State) :
    (bodyOf i s).state.treeValid = s.treeValid ∨
      ((bodyOf i s).state.treeValid = true ∧ (i = .build ∨ i = .encode ∨ i = .decode)) ∨
      ((bodyOf i s).state.treeValid = false ∧ WritesFreq i) := by
  have hfreq : WritesFreq i → (bodyOf i s).state.treeValid = s.treeValid ∨
      (bodyOf i s).state.treeValid = false ∧ WritesFreq i := fun hi =>
    (flags_of_writesFreq hi s).imp (fun h => by rw [h.2]) fun h => ⟨h.1, hi⟩
  cases i with
  | nop => exact .inl rfl
  | clear => exact (hfreq (.inr (.inr rfl))).imp_right .inr
  | freqSet y => exact (hfreq (.inl ⟨y, rfl⟩)).imp_right .inr
  | freqCount => exact (hfreq (.inr (.inl rfl))).imp_right .inr
  | build => exact .inr (.inl ⟨rfl, .inl rfl⟩)
  | gen => exact .inl (genBody_flags s).1
  | map => exact .inl (mapBody_flags s).1
  | parse => exact .inl (parseBody_flags s).1
  | encode => exact (encodeBody_flags s).imp And.left fun h => .inl ⟨h.1, .inr (.inl rfl)⟩
  | decode => exact .inr (.inl ⟨(decodeBody_flags s).1, .inr (.inr rfl)⟩)

/-- Which bodies change CODES_VALID, and how (R47). -/
theorem bodyOf_codesValid (i : Instr) (s : State) :
    (bodyOf i s).state.codesValid = s.codesValid ∨
      ((bodyOf i s).state.codesValid = true ∧ (i = .gen ∨ i = .encode ∨ i = .decode)) ∨
      ((bodyOf i s).state.codesValid = false ∧ (WritesFreq i ∨ i = .build)) := by
  have hfreq : WritesFreq i → (bodyOf i s).state.codesValid = s.codesValid ∨
      (bodyOf i s).state.codesValid = false ∧ (WritesFreq i ∨ i = .build) := fun hi =>
    (flags_of_writesFreq hi s).imp (fun h => by rw [h.2]) fun h => ⟨h.2, .inl hi⟩
  cases i with
  | nop => exact .inl rfl
  | clear => exact (hfreq (.inr (.inr rfl))).imp_right .inr
  | freqSet y => exact (hfreq (.inl ⟨y, rfl⟩)).imp_right .inr
  | freqCount => exact (hfreq (.inr (.inl rfl))).imp_right .inr
  | build => exact .inr (.inr ⟨rfl, .inr rfl⟩)
  | gen => exact (genBody_flags s).2.imp id fun h => .inl ⟨h, .inl rfl⟩
  | map => exact .inl (mapBody_flags s).2
  | parse => exact .inl (parseBody_flags s).2
  | encode => exact (encodeBody_flags s).imp And.right fun h => .inl ⟨h.2, .inr (.inl rfl)⟩
  | decode => exact .inr (.inl ⟨(decodeBody_flags s).2, .inr (.inr rfl)⟩)

/-- Settles O53: every body keeps a flag, or sets or clears it as R46 and R47 list. -/
theorem validityFlagWriters : Obligations.ValidityFlagWriters := by
  unfold Obligations.ValidityFlagWriters
  intro i s t h
  obtain ⟨e, x, rfl, -⟩ := exec_cases h
  have htree := bodyOf_treeValid i s
  have hcodes := bodyOf_codesValid i s
  refine ⟨fun h0 h1 => ?_, fun h1 h0 => ?_, fun h0 h1 => ?_, fun h1 h0 => ?_⟩
  · simpa [show (bodyOf i s).state.treeValid = true from h1, h0] using htree
  · simpa [show (bodyOf i s).state.treeValid = false from h0, h1, WritesFreq] using htree
  · simpa [show (bodyOf i s).state.codesValid = true from h1, h0] using hcodes
  · simpa [show (bodyOf i s).state.codesValid = false from h0, h1, WritesFreq, or_assoc] using hcodes

/-! ## NotReady -/

/-- Without valid tables GEN, MAP and PARSE record NotReady. -/
theorem notReady_of_no_tables {s : State} (htree : s.treeValid = false) (hcodes : s.codesValid = false) :
    (∃ u, exec .gen s = .next u ∧ u.error = some .notReady) ∧
      (∃ u, exec .map s = .next u ∧ u.error = some .notReady) ∧
      ∃ u, exec .parse s = .next u ∧ u.error = some .notReady :=
  ⟨⟨_, congrArg Body.finish (genBody_of_no_tree htree), rfl⟩,
    ⟨_, congrArg Body.finish (mapBody_of_no_codes hcodes), rfl⟩,
    ⟨_, congrArg Body.finish (parseBody_of_no_codes hcodes), rfl⟩⟩

/-- Settles O54: a FREQ writer that ends without error has cleared both flags. -/
theorem staleTablesAreNotReady : Obligations.StaleTablesAreNotReady := by
  unfold Obligations.StaleTablesAreNotReady
  intro i s t hi _ h ht
  obtain ⟨e, x, rfl, hcases⟩ := exec_cases h
  rcases flags_of_writesFreq hi s with ⟨hkind, -⟩ | ⟨htree, hcodes⟩
  · rcases hcases with ⟨hnone, -⟩ | ⟨k, -, rfl⟩
    · exact absurd hnone hkind
    · cases ht
  · exact notReady_of_no_tables htree hcodes

/-! ## The error kinds -/

/-- MAP's loop raises CapacityExceeded, or UnknownSymbol at a symbol without a code (43_encoder.md R160). -/
theorem mapSymbols_error {code : Symbol → Code} {cap : Nat} {syms : List Symbol} {i pos : Nat} {e : ErrorKind × Nat}
    (h : mapSymbols code cap syms i pos = .error e) :
    e.1 = .capacityExceeded ∨ (e.1 = .unknownSymbol ∧ ∃ y ∈ syms, code y = []) := by
  induction syms generalizing i pos with
  | nil => cases h
  | cons y rest ih =>
    by_cases hnil : code y = []
    · rw [mapSymbols_cons_of_no_code hnil] at h
      cases h
      exact .inr ⟨rfl, y, List.mem_cons_self, hnil⟩
    · rcases Nat.lt_or_ge cap (pos + (code y).length) with hover | hfits
      · rw [mapSymbols_cons_of_over hnil hover] at h
        cases h
        exact .inl rfl
      · rw [mapSymbols_cons_of_fits hnil hfits] at h
        cases hrest : mapSymbols code cap rest (i + 1) (pos + (code y).length) with
        | ok c =>
          rw [hrest] at h
          cases h
        | error e' =>
          rw [hrest] at h
          cases h
          exact (ih hrest).imp_right fun ⟨hkind, z, hz, hcode⟩ => ⟨hkind, z, List.mem_cons_of_mem _ hz, hcode⟩

/-- MAP's kinds, each with what it takes. -/
theorem mapBody_kind {s : State} {k : ErrorKind} (h : (mapBody s).kind = some k) :
    k = .capacityExceeded ∨ (k = .notReady ∧ s.codesValid = false) ∨
      (k = .unknownSymbol ∧ ∃ y ∈ s.inputSymbols, s.codeAt y = []) := by
  rcases mapBody_cases s with ⟨hno, hb⟩ | ⟨-, -, hb⟩ | ⟨-, -, ⟨c, -, hb⟩ | ⟨e, herr, hb⟩⟩ <;> rw [hb] at h <;> cases h
  · exact .inr (.inl ⟨rfl, hno⟩)
  · exact .inl rfl
  · exact (mapSymbols_error herr).imp_right .inr

theorem parseBody_kind {s : State} {k : ErrorKind} (h : (parseBody s).kind = some k) :
    (k = .notReady ∧ s.codesValid = false) ∨ k ∈ mayRaise .decode := by
  rcases parseBody_cases s with ⟨hno, hb⟩ | ⟨-, -, hb⟩ | ⟨-, -, ⟨-, -, hb⟩ | ⟨-, -, hb⟩ | ⟨-, -, hb⟩ | ⟨-, -, hb⟩ |
    ⟨-, -, -, ⟨out, -, hb⟩ | ⟨idx, -, hb⟩⟩⟩ <;> rw [hb] at h <;> cases h
  · exact .inl ⟨rfl, hno⟩
  all_goals exact .inr (by decide)

/-- R163: ENCODE maps with the codes of its own input, so only a capacity can stop it. -/
theorem encodeBody_kind {s : State} {k : ErrorKind} (h : (encodeBody s).kind = some k) : k = .capacityExceeded := by
  rcases Nat.lt_or_ge s.params.symCap s.ilen.toNat with hover | hilen
  · rw [encodeBody_of_ilen_over hover] at h
    cases h
    rfl
  · rw [encodeBody_of_fits hilen, Body.kind_cleanup] at h
    rcases mapBody_kind h with hk | ⟨-, hno⟩ | ⟨-, y, hy, hnil⟩
    · exact hk
    · cases hno
    · exact absurd hnil (s.code_ne_nil_of_mem_input y hy)

theorem bodyOf_kind {i : Instr} {s : State} {k : ErrorKind} (h : (bodyOf i s).kind = some k) : k ∈ mayRaise i := by
  cases i with
  | nop => cases h
  | clear => cases h
  | freqSet y =>
    rcases freqSetBody_cases y s with ⟨-, hb⟩ | ⟨-, -, hb⟩ | ⟨-, -, hb⟩ <;> rw [bodyOf, hb] at h <;> cases h <;>
      simp [mayRaise]
  | freqCount =>
    rcases freqCountBody_cases s with ⟨-, hb⟩ | ⟨-, hb⟩ <;> rw [bodyOf, hb] at h <;> cases h
    simp [mayRaise]
  | build => cases h
  | gen =>
    rcases genBody_cases s with ⟨-, hb⟩ | ⟨-, table, -, hb⟩ <;> rw [bodyOf, hb] at h <;> cases h
    simp [mayRaise]
  | map => rcases mapBody_kind h with rfl | ⟨rfl, -⟩ | ⟨rfl, -⟩ <;> simp [mayRaise]
  | parse =>
    rcases parseBody_kind h with ⟨rfl, -⟩ | hk
    · simp [mayRaise]
    · exact List.mem_cons_of_mem _ hk
  | encode => exact List.mem_singleton.2 (encodeBody_kind h)
  | decode =>
    rw [bodyOf, decodeBody_eq_parseBody] at h
    rcases parseBody_kind h with ⟨-, hno⟩ | hk
    · cases hno
    · exact hk

/-- Settles O52: from a state without an error record an error is one its body raised. -/
theorem errorKindsPerCommand : Obligations.ErrorKindsPerCommand := by
  unfold Obligations.ErrorKindsPerCommand
  intro i s t k _ hs h ht
  obtain ⟨e, x, rfl, ⟨-, rfl, -⟩ | ⟨k', hkind, rfl⟩⟩ := exec_cases h
  · have hkept := congrArg (fun v => v.2.1) (bodyOf_hostSide i s)
    rw [show (bodyOf i s).state.error = s.error from hkept, hs] at ht
    cases ht
  · obtain rfl := Option.some.inj ht
    exact bodyOf_kind hkind

/-! ## The empty table -/

theorem freqSum_replicate_zero : freqSum (Vector.replicate 256 0#32) = 0 :=
  List.sum_eq_zero fun n hn => by
    obtain ⟨y, -, rfl⟩ := List.mem_map.1 hn
    rw [entry_replicate]
    rfl

theorem distinctCount_replicate_zero : distinctCount (Vector.replicate 256 0#32) = 0 := by
  simp [distinctCount]

theorem treeRoot_replicate_zero : treeRoot (Vector.replicate 256 0#32) = none := by
  rw [treeRoot_eq (by rw [freqSum_replicate_zero]; decide), if_pos distinctCount_replicate_zero]

theorem treeArena_replicate_zero : treeArena (Vector.replicate 256 0#32) = [] := by
  rw [← List.length_eq_zero_iff, treeArena_length, leavesOf_length, distinctCount_replicate_zero]

/-- Settles O57: the input and the table are empty at reset, and no table is valid. -/
theorem legalCommandsAfterReset : Obligations.LegalCommandsAfterReset := by
  unfold Obligations.LegalCommandsAfterReset
  intro p _
  have hilen : (State.resetWith p).ilen.toNat ≤ p.symCap := Nat.zero_le p.symCap
  have hblen : (State.resetWith p).blen.toNat ≤ p.bitCap := Nat.zero_le p.bitCap
  have hstream : (State.resetWith p).ownStream = [] := by simp [State.ownStream, State.inputSymbols, State.resetWith]
  have hfits : (State.resetWith p).ownStream.length ≤ p.bitCap := by rw [hstream]; exact Nat.zero_le p.bitCap
  have hsum : freqSum (State.resetWith p).freq < 2 ^ 32 := freqSum_replicate_zero ▸ Nat.two_pow_pos 32
  have hparsed : parseBody (State.resetWith p).coded = .ok (State.resetWith p).coded.dropOutput := by
    rw [parseBody_of_empty_table (s := (State.resetWith p).coded) rfl hblen rfl]
    exact if_pos rfl
  obtain ⟨hgen, hmap, hparse⟩ := notReady_of_no_tables (s := State.resetWith p) rfl rfl
  refine ⟨⟨_, exec_encode_of_fits hilen hfits, rfl, ?_, rfl⟩,
    ⟨_, (exec_decode_eq hsum).trans (congrArg Body.finish hparsed), rfl, rfl, rfl⟩,
    ⟨(State.resetWith p).built.complete, rfl, rfl, ?_, ?_⟩, hgen, hmap, hparse⟩
  · rw [State.encoded, State.complete_blen, State.setStream_blen, hstream]
    rfl
  · rw [State.complete_root, State.built, State.setTree_root, State.resetWith, treeRoot_replicate_zero]
  · rw [State.complete_nnodes, State.built, State.setTree_nnodes, State.resetWith, treeArena_replicate_zero]
    rfl

end Sys2Proof.Machine
end

section
/-! SUPPORT. Composite commands as their parts (43_encoder.md R162, 44_decoder.md R184), words no command reads
(70_reset_and_hazards.md R261), and the transmission of a table (40_frequency.md R101). -/

namespace Sys2Proof.Machine

open Sys2Proof.Claims

/-! ## Bodies on states that differ in fields they do not read -/

/-- A change of the state a body leaves. -/
def Body.mapState (b : Body) (f : State → State) : Body :=
  match b with
  | .ok s => .ok (f s)
  | .raised s k x => .raised (f s) k x

/-- Completion is the same twice as once. -/
theorem Body.finish_mapState_complete (b : Body) : (b.mapState State.complete).finish = b.finish := by
  cases b <;> rfl

/-- A change that leaves the completion's fields alone commutes with it. -/
theorem Body.finish_mapState {f : State → State} (hc : ∀ s, (f s).complete = f s.complete)
    (hr : ∀ s k x, (f s).raise k x = f (s.raise k x)) {b : Body} {t : State} (h : b.finish = .next t) :
    (b.mapState f).finish = .next (f t) := by
  cases b with
  | ok s =>
    obtain rfl := Host.Outcome.next.inj h
    exact congrArg _ (hc s)
  | raised s k x =>
    obtain rfl := Host.Outcome.next.inj h
    exact congrArg _ (hr s k x)

/-- MAP reads nothing that `f` changes, and writes nothing that `f` reads or writes. -/
structure MapCommutes (f : State → State) (s : State) : Prop where
  valid : (f s).codesValid = s.codesValid
  params : (f s).params = s.params
  ilen : (f s).ilen = s.ilen
  code : (f s).codeAt = s.codeAt
  input : (f s).inputSymbols = s.inputSymbols
  drop : (f s).dropStream = f s.dropStream
  void : (f s).voidStream = f s.voidStream
  set : ∀ words len, (f s).setStream words len = f (s.setStream words len)

theorem MapCommutes.mapBody {f : State → State} {s : State} (h : MapCommutes f s) :
    mapBody (f s) = (mapBody s).mapState f := by
  simp only [Machine.mapBody, h.valid, h.params, h.ilen, h.code, h.input, h.drop, h.void, h.set]
  cases mapSymbols s.codeAt s.params.bitCap s.inputSymbols 0 0 <;> split_ifs <;> rfl

/-- PARSE reads nothing that `f` changes, and writes nothing that `f` reads or writes. -/
structure ParseCommutes (f : State → State) (s : State) : Prop where
  valid : (f s).codesValid = s.codesValid
  params : (f s).params = s.params
  blen : (f s).blen = s.blen
  total : (f s).total = s.total
  ndistinct : (f s).ndistinct = s.ndistinct
  code : (f s).codeAt = s.codeAt
  sole : (f s).soleSymbol = s.soleSymbol
  stream : (f s).streamBits = s.streamBits
  drop : (f s).dropOutput = f s.dropOutput
  void : (f s).voidOutput = f s.voidOutput
  set : ∀ out, (f s).setOutput out = f (s.setOutput out)

theorem ParseCommutes.parseBody {f : State → State} {s : State} (h : ParseCommutes f s) :
    parseBody (f s) = (parseBody s).mapState f := by
  simp only [Machine.parseBody, h.valid, h.params, h.blen, h.total, h.ndistinct, h.code, h.sole, h.stream, h.drop,
    h.void, h.set]
  cases scanBits s.codeAt s.total.toNat s.streamBits 0 0 [] [] <;> split_ifs <;> rfl

/-! ## Composite commands -/

theorem mapCommutes_complete (s : State) : MapCommutes State.complete s :=
  ⟨rfl, rfl, rfl, rfl, rfl, rfl, rfl, fun _ _ => rfl⟩

theorem parseCommutes_complete (s : State) : ParseCommutes State.complete s :=
  ⟨rfl, rfl, rfl, rfl, rfl, rfl, rfl, rfl, rfl, rfl, fun _ => rfl⟩

/-- A MAP after a completed command ends as one in sequence with it. -/
theorem exec_map_complete (s : State) : exec .map s.complete = (mapBody s).finish := by
  rw [exec_map, (mapCommutes_complete s).mapBody, Body.finish_mapState_complete]

theorem exec_parse_complete (s : State) : exec .parse s.complete = (parseBody s).finish := by
  rw [exec_parse, (parseCommutes_complete s).parseBody, Body.finish_mapState_complete]

/-- MAP's own clean-up already clears BLEN (60_exceptions.md R222). -/
theorem mapBody_cleanup_dropStream (s : State) : (mapBody s).cleanup State.dropStream = mapBody s := by
  rcases mapBody_cases s with ⟨-, h⟩ | ⟨-, -, h⟩ | ⟨-, -, ⟨c, -, h⟩ | ⟨e, -, h⟩⟩ <;> rw [h] <;> rfl

theorem exec_gen_built_complete (s : State) : exec .gen s.built.complete = .next s.built.generated.complete := by
  rw [exec_gen, genBody_of_tree rfl]
  rfl

/-- Settles O48: each part's completion is overwritten by the next one's, and no part reads it. -/
theorem compositeCommandsAreTheirParts : Obligations.CompositeCommandsAreTheirParts := by
  unfold Obligations.CompositeCommandsAreTheirParts
  intro s t₁ t₂ t₃
  refine ⟨fun _ hcount hok hbuild hgen => ?_, fun hbuild hgen => ?_⟩
  · rcases freqCountBody_cases s with ⟨-, hbody⟩ | ⟨-, hbody⟩
    · rw [exec_freqCount, hbody] at hcount
      obtain rfl := Host.Outcome.next.inj hcount
      cases hok
    · rw [exec_freqCount, hbody] at hcount
      obtain rfl := Host.Outcome.next.inj hcount
      obtain rfl := Host.Outcome.next.inj ((exec_build _).symm.trans hbuild)
      obtain rfl := Host.Outcome.next.inj ((exec_gen_built_complete s.counted).symm.trans hgen)
      have hencode : encodeBody s = mapBody s.counted.built.generated := by
        rw [encodeBody, hbody, Body.andThen_ok, buildBody_eq, Body.andThen_ok, genBody_of_tree rfl, Body.andThen_ok]
        exact mapBody_cleanup_dropStream _
      rw [exec_encode, hencode, exec_map_complete]
  · obtain rfl := Host.Outcome.next.inj ((exec_build s).symm.trans hbuild)
    obtain rfl := Host.Outcome.next.inj ((exec_gen_built_complete s).symm.trans hgen)
    exact (congrArg Body.finish (decodeBody_eq_parseBody s)).trans (exec_parse_complete _).symm

/-! ## Words no command reads -/

/-- `s` with other words in SYM_IN. -/
def State.withSymIn (s : State) (m : Memory Symbol) : State := { s with symIn := m }

/-- `s` with other words in BITS. -/
def State.withBits (s : State) (m : Memory Word) : State := { s with bits := m }

theorem State.inputSymbols_withSymIn {s : State} {m : Memory Symbol}
    (h : ∀ j, j < s.ilen.toNat → Memory.read m j = Memory.read s.symIn j) :
    (s.withSymIn m).inputSymbols = s.inputSymbols :=
  List.map_congr_left fun j hj => by
    rw [State.symInAt, State.symInAt, State.withSymIn, h j (List.mem_range.1 hj)]

theorem State.streamBits_withBits {s : State} {m : Memory Word}
    (h : ∀ w, w < (s.blen.toNat + 31) / 32 → Memory.read m w = Memory.read s.bits w) :
    (s.withBits m).streamBits = s.streamBits :=
  List.map_congr_left fun j hj => by
    have hw : j / 32 < (s.blen.toNat + 31) / 32 := by
      have : j < s.blen.toNat := List.mem_range.1 hj
      omega
    rw [State.streamBit, State.streamBit, State.withBits, h _ hw]

theorem mapCommutes_withSymIn {s : State} {m : Memory Symbol} (h : (s.withSymIn m).inputSymbols = s.inputSymbols) :
    MapCommutes (·.withSymIn m) s :=
  ⟨rfl, rfl, rfl, rfl, h, rfl, rfl, fun _ _ => rfl⟩

theorem parseCommutes_withBits {s : State} {m : Memory Word} (h : (s.withBits m).streamBits = s.streamBits) :
    ParseCommutes (·.withBits m) s :=
  ⟨rfl, rfl, rfl, rfl, rfl, rfl, rfl, h, rfl, rfl, fun _ => rfl⟩

section
variable {s : State} {m : Memory Symbol} (h : (s.withSymIn m).inputSymbols = s.inputSymbols)
include h

theorem State.counted_withSymIn : (s.withSymIn m).counted = s.counted.withSymIn m := by
  rw [State.counted, h]
  rfl

omit h in
theorem freqCountBody_of_ilen_over (hover : s.params.symCap < s.ilen.toNat) :
    freqCountBody s = .raised s .capacityExceeded s.ilen := if_pos hover

theorem freqCountBody_withSymIn : freqCountBody (s.withSymIn m) = (freqCountBody s).mapState (·.withSymIn m) := by
  rcases Nat.lt_or_ge s.params.symCap s.ilen.toNat with hover | hilen
  · rw [freqCountBody_of_ilen_over hover, freqCountBody_of_ilen_over (s := s.withSymIn m) hover]
    rfl
  · rw [freqCountBody_of_fits hilen, freqCountBody_of_fits (s := s.withSymIn m) hilen, State.counted_withSymIn h]
    rfl

theorem encodeBody_withSymIn : encodeBody (s.withSymIn m) = (encodeBody s).mapState (·.withSymIn m) := by
  rcases Nat.lt_or_ge s.params.symCap s.ilen.toNat with hover | hilen
  · rw [encodeBody_of_ilen_over hover, encodeBody_of_ilen_over (s := s.withSymIn m) hover]
    rfl
  · rw [encodeBody_of_fits hilen, encodeBody_of_fits (s := s.withSymIn m) hilen, State.counted_withSymIn h,
      mapBody_cleanup_dropStream, mapBody_cleanup_dropStream]
    exact (mapCommutes_withSymIn (s := s.counted.coded) h).mapBody

end

theorem decodeBody_withBits {s : State} {m : Memory Word} (h : (s.withBits m).streamBits = s.streamBits) :
    decodeBody (s.withBits m) = (decodeBody s).mapState (·.withBits m) := by
  rw [decodeBody_eq_parseBody, decodeBody_eq_parseBody]
  exact (parseCommutes_withBits (s := s.built.generated) h).parseBody

/-- Settles O55: the commands see SYM_IN and BITS through the input's symbols and the stream's bits alone. -/
theorem unreadWordsDoNotMatter : Obligations.UnreadWordsDoNotMatter := by
  unfold Obligations.UnreadWordsDoNotMatter
  intro s t i
  refine ⟨fun m hi hread ht => ?_, fun m hi hread ht => ?_⟩
  · have hin := State.inputSymbols_withSymIn hread
    have hbody : bodyOf i (s.withSymIn m) = (bodyOf i s).mapState (·.withSymIn m) := by
      rcases hi with rfl | rfl | rfl
      · exact freqCountBody_withSymIn hin
      · exact (mapCommutes_withSymIn hin).mapBody
      · exact encodeBody_withSymIn hin
    rw [exec_eq_bodyOf] at ht
    exact (exec_eq_bodyOf i _).trans ((congrArg Body.finish hbody).trans
      (Body.finish_mapState (f := (·.withSymIn m)) (fun _ => rfl) (fun _ _ _ => rfl) ht))
  · have hstream := State.streamBits_withBits hread
    have hbody : bodyOf i (s.withBits m) = (bodyOf i s).mapState (·.withBits m) := by
      rcases hi with rfl | rfl
      · exact (parseCommutes_withBits hstream).parseBody
      · exact decodeBody_withBits hstream
    rw [exec_eq_bodyOf] at ht
    exact (exec_eq_bodyOf i _).trans ((congrArg Body.finish hbody).trans
      (Body.finish_mapState (f := (·.withBits m)) (fun _ => rfl) (fun _ _ _ => rfl) ht))

/-! ## Transmission of a table -/

/-- A FREQ_SET of a symbol without a count, while the sum fits (R100). -/
theorem exec_freqSet_of_absent {s : State} {y : Symbol} {c : Word} (hc : c ≠ 0#32) (hy : entry s.freq y = 0#32)
    (hfits : s.total.toNat + c.toNat ≤ 2 ^ 32 - 1) :
    ∃ t, exec (.freqSet y) { s with arg := c } = .next t ∧ t.error = s.error ∧
      t.total.toNat = s.total.toNat + c.toNat ∧ ∀ z, entry t.freq z = if z = y then c else entry s.freq z := by
  have htotal : ({ s with arg := c } : State).totalWith y c = s.total.toNat + c.toNat := by
    rw [State.totalWith, hy]
    rfl
  rcases freqSetBody_cases y { s with arg := c } with ⟨hzero, -⟩ | ⟨-, hover, -⟩ | ⟨-, -, hbody⟩
  · exact absurd hzero hc
  · rw [htotal] at hover
    omega
  · refine ⟨_, congrArg Body.finish hbody, rfl, ?_, fun z => entry_set s.freq y z c⟩
    rw [State.complete_total, State.setFreq_total, htotal, BitVec.toNat_ofNat]
    exact Nat.mod_eq_of_lt (by omega)

/-- Pairs with new symbols whose sum fits load one after another. -/
theorem loadPairs_of_absent {ps : List (Symbol × Word)} {s : State} (hnodup : (ps.map Prod.fst).Nodup)
    (hne : ∀ p ∈ ps, p.2 ≠ 0#32) (habsent : ∀ p ∈ ps, entry s.freq p.1 = 0#32)
    (hfits : s.total.toNat + (ps.map fun p => p.2.toNat).sum ≤ 2 ^ 32 - 1) :
    ∃ t, loadPairs ps s = .next t ∧ t.error = s.error ∧ (∀ p ∈ ps, entry t.freq p.1 = p.2) ∧
      ∀ y, y ∉ ps.map Prod.fst → entry t.freq y = entry s.freq y := by
  induction ps generalizing s with
  | nil => exact ⟨s, rfl, rfl, by simp, fun _ _ => rfl⟩
  | cons p ps ih =>
    simp only [List.map_cons, List.nodup_cons, List.sum_cons, List.forall_mem_cons] at hnodup hne habsent hfits
    obtain ⟨hnew, hnodup⟩ := hnodup
    obtain ⟨hp, hne⟩ := hne
    obtain ⟨hpabsent, habsent⟩ := habsent
    obtain ⟨u, hu, huerr, hutotal, huentry⟩ := exec_freqSet_of_absent hp hpabsent (by omega)
    have hother : ∀ q ∈ ps, q.1 ≠ p.1 := fun q hq heq => hnew (heq ▸ List.mem_map_of_mem hq)
    obtain ⟨t, ht, hterr, hloaded, hrest⟩ := ih hnodup hne
      (fun q hq => by rw [huentry, if_neg (hother q hq), habsent q hq]) (by omega)
    refine ⟨t, by rw [loadPairs, hu]; exact ht, hterr.trans huerr, List.forall_mem_cons.2 ⟨?_, hloaded⟩, ?_⟩
    · rw [hrest p.1 hnew, huentry, if_pos rfl]
    · intro y hy
      rw [List.map_cons, List.mem_cons, not_or] at hy
      rw [hrest y hy.2, huentry, if_neg hy.1]

/-- Settles O32: after CLEAR every symbol is new, and each pair's FREQ_SET adds its count to TOTAL. -/
theorem transmittedTableLoads : Obligations.TransmittedTableLoads := by
  unfold Obligations.TransmittedTableLoads
  intro s ps hnodup hne hfits
  obtain ⟨t, ht, herr, hloaded, hrest⟩ := loadPairs_of_absent (s := s.clearDerived.complete) hnodup hne
    (fun p _ => s.entry_clearDerived_freq p.1) (by simpa using hfits)
  exact ⟨_, t, exec_clear s, ht, herr, hloaded, fun y hy => (hrest y hy).trans (s.entry_clearDerived_freq y)⟩

end Sys2Proof.Machine
end

section
/-! SUPPORT. What a host access and a step can do, said once (00_scope.md R7, 20_memory.md R60 to R72,
70_reset_and_hazards.md R254, R255), and the rules about steps that follow from it. -/

namespace Sys2Proof.Machine

open Sys2Proof.Claims

/-! ## The effect of a host write -/

/-- The states a host write of `v` to location `l` can leave: no change, a reset, a control register's own write,
acceptance, a refusal of a busy block, or an input stored by an idle one. -/
inductive WriteEffect (s : State) (l : Loc) (v : Word) : State → Prop
  | nothing : WriteEffect s l v s
  | reset (hl : l = .reg .ctrl) (hv : v.getLsbD 1 = true) : WriteEffect s l v s.hardReset
  | irqEn (hl : l = .reg .ctrl) (hv : v.getLsbD 1 = false) : WriteEffect s l v { s with irqEn := v.getLsbD 0 }
  | flags (hl : l = .reg .status) : WriteEffect s l v (s.clearFlags v)
  | accept (hl : l = .reg .cmd) (hp : s.pending = none) : WriteEffect s l v (s.accept v)
  | overrun (hl : l = .reg .cmd) (hp : s.pending ≠ none) : WriteEffect s l v { s with overrun := true }
  | accessErr (hp : s.pending ≠ none) : WriteEffect s l v { s with accessErr := true }
  | arg (hp : s.pending = none) : WriteEffect s l v { s with arg := v }
  | ilen (hp : s.pending = none) : WriteEffect s l v { s with ilen := v }
  | blen (hp : s.pending = none) : WriteEffect s l v { s with blen := v }
  | symIn (i : Nat) (hl : l = .symIn i) (hp : s.pending = none) :
      WriteEffect s l v { s with symIn := Memory.write s.symIn i (v.setWidth 8) }
  | bits (w : Nat) (hl : l = .bits w) (hp : s.pending = none) :
      WriteEffect s l v { s with bits := Memory.write s.bits w v }

theorem State.protectedWrite_of_idle {s : State} (h : s.pending = none) (t : State) : s.protectedWrite t = t := by
  rw [State.protectedWrite, s.busy_of_none h, if_neg Bool.false_ne_true]

theorem State.protectedWrite_of_busy {s : State} (h : s.pending ≠ none) (t : State) :
    s.protectedWrite t = { s with accessErr := true } := by
  rw [State.protectedWrite, s.busy_iff.2 (Option.ne_none_iff_exists'.1 h), if_pos rfl]

/-- A protected write stores while idle and is refused while busy (R255). -/
theorem WriteEffect.of_protected {s t : State} {l : Loc} {v : Word}
    (h : s.pending = none → WriteEffect s l v t) : WriteEffect s l v (s.protectedWrite t) := by
  by_cases hp : s.pending = none
  · rw [State.protectedWrite_of_idle hp]
    exact h hp
  · rw [State.protectedWrite_of_busy hp]
    exact .accessErr hp

/-- The locations a host write can have an effect on (10_state.md section 2). -/
def writable : Loc → Bool
  | .reg .ctrl => true
  | .reg .status => true
  | .reg .cmd => true
  | .reg .arg => true
  | .reg .ilen => true
  | .reg .blen => true
  | .symIn _ => true
  | .bits _ => true
  | _ => false

theorem State.writeLoc_of_not_writable (s : State) {l : Loc} (h : writable l = false) (v : Word) :
    s.writeLoc l v = s := by
  cases l with
  | reg r =>
    cases r with
    | ctrl | status | cmd | arg | ilen | blen => cases h
    | _ => rfl
  | symIn i => cases h
  | bits w => cases h
  | _ => rfl

theorem State.writeLoc_effect (s : State) (l : Loc) (v : Word) : WriteEffect s l v (s.writeLoc l v) := by
  cases hl : writable l with
  | false =>
    rw [s.writeLoc_of_not_writable hl]
    exact .nothing
  | true =>
    cases l with
    | reg r =>
      cases r with
      | ctrl =>
        cases hv : v.getLsbD 1 with
        | true =>
          rw [s.writeLoc_ctrl_of_set hv]
          exact .reset rfl hv
        | false =>
          rw [s.writeLoc_ctrl_of_clear hv]
          exact .irqEn rfl hv
      | status => exact .flags rfl
      | cmd =>
        by_cases hp : s.pending = none
        · rw [State.writeLoc_cmd_of_idle v hp]
          exact .accept rfl hp
        · rw [State.writeLoc_cmd_of_busy v hp]
          exact .overrun rfl hp
      | arg => exact .of_protected .arg
      | ilen => exact .of_protected .ilen
      | blen => exact .of_protected .blen
      | _ => cases hl
    | symIn i => exact .of_protected (.symIn i rfl)
    | bits w => exact .of_protected (.bits w rfl)
    | _ => cases hl

/-! ## The effect of a host access and of a step -/

/-- A host access that is answered is a read, which changes the word read alone, or a write. -/
theorem hostStep_cases {a : Access} {s t : State} (h : hostStep a s = .next t) :
    (∃ addr, a = .read 4 addr ∧ t = { s with readData := some (s.busRead addr) }) ∨
      ∃ addr v, a = .write 4 addr v ∧ WriteEffect s (locate s.params addr) v t := by
  cases a with
  | read bytes addr =>
    by_cases hn : bytes = 4
    · subst hn
      exact .inl ⟨addr, rfl, (Host.Outcome.next.inj h).symm⟩
    · rw [hostStep_read_of_width_ne s addr hn] at h
      cases h
  | write bytes addr v =>
    by_cases hn : bytes = 4
    · subst hn
      obtain rfl := Host.Outcome.next.inj h
      exact .inr ⟨addr, v, rfl, s.writeLoc_effect _ v⟩
    · rw [hostStep_write_of_width_ne s addr v hn] at h
      cases h

/-- The engine's step: nothing, a command, or the completion of an illegal word (45_control.md R201). -/
theorem engineStep_cases (s : State) :
    (s.pending = none ∧ engineStep s = .next s) ∨
      (s.pending ≠ none ∧ ((∃ i, engineStep s = exec i s) ∨
        ∃ w, engineStep s = .next (s.raise .illegalCommand w))) := by
  cases hp : s.pending with
  | none => exact .inl ⟨rfl, engineStep_of_idle hp⟩
  | some w =>
    refine .inr ⟨Option.some_ne_none w, ?_⟩
    cases hd : decode w with
    | ok i => exact .inl ⟨i, engineStep_of_decode_ok hp hd⟩
    | error e => exact .inr ⟨w, engineStep_of_decode_error hp hd⟩

/-- A step is a turn at the head of the agenda, the engine's step where none is left, or an idle step (log 2). -/
theorem step_cases {s t : State} (h : step s = .next t) :
    (∃ turn rest, s.agenda = turn :: rest ∧ takeTurn turn (s.tick.withAgenda rest) = .next t) ∨
      (s.agenda = [] ∧ s.pending ≠ none ∧ engineStep s.tick = .next t) ∨ (s.agenda = [] ∧ t = s) := by
  cases hagenda : s.agenda with
  | cons turn rest => exact .inl ⟨turn, rest, rfl, (step_of_agenda_cons hagenda).symm.trans h⟩
  | nil =>
    rw [step_of_agenda_nil hagenda] at h
    cases hp : s.pending with
    | none =>
      rw [quietStep_of_idle hp] at h
      exact .inr (.inr ⟨rfl, (Host.Outcome.next.inj h).symm⟩)
    | some w =>
      rw [quietStep_of_pending hp] at h
      exact .inr (.inl ⟨rfl, Option.some_ne_none w, h⟩)

/-- The engine always answers, keeps the agenda, IRQ_EN and CMD_LAST, and completes a pending command. -/
theorem engineStep_next (s : State) : ∃ t, engineStep s = .next t ∧ t.agenda = s.agenda ∧ t.irqEn = s.irqEn ∧
    t.cmdLast = s.cmdLast ∧ ((s.pending = none ∧ t = s) ∨ (s.pending ≠ none ∧ t.pending = none ∧ t.done = true)) := by
  rcases engineStep_cases s with ⟨hp, h⟩ | ⟨hp, ⟨i, h⟩ | ⟨w, h⟩⟩
  · exact ⟨s, h, rfl, rfl, rfl, .inl ⟨hp, rfl⟩⟩
  · obtain ⟨t, ht, htp, htd, -⟩ := everyCommandCompletes i s
    obtain ⟨-, hirq, -, -, hcmd, -, -, hagenda, -⟩ := commandsKeepTheHostSide i s t ht
    exact ⟨t, h.trans ht, hagenda, hirq, hcmd, .inr ⟨hp, htp, htd⟩⟩
  · exact ⟨_, h, rfl, rfl, rfl, .inr ⟨hp, rfl, rfl⟩⟩

theorem WriteEffect.agenda_eq {s t : State} {l : Loc} {v : Word} (h : WriteEffect s l v t) : t.agenda = s.agenda := by
  cases h <;> rfl

/-- A 32-bit access is answered and keeps the agenda. -/
theorem hostStep_next {a : Access} (ha : a.wf = true) (s : State) :
    ∃ t, hostStep a s = .next t ∧ t.agenda = s.agenda := by
  cases a with
  | read bytes addr =>
    obtain rfl : bytes = 4 := eq_of_beq ha
    exact ⟨_, hostStep_read_word s addr, rfl⟩
  | write bytes addr v =>
    obtain rfl : bytes = 4 := eq_of_beq ha
    exact ⟨_, hostStep_write_word s addr v, (s.writeLoc_effect _ v).agenda_eq⟩

/-! ## Runs -/

/-- Settles O9: every turn of such an agenda is answered, and only takes itself off the agenda. -/
theorem wordAccessAgendasStepOn : Obligations.WordAccessAgendasStepOn := by
  unfold Obligations.WordAccessAgendasStepOn
  intro s hok
  cases hagenda : s.agenda with
  | nil =>
    rw [step_of_agenda_nil hagenda]
    cases hp : s.pending with
    | none => exact ⟨s, quietStep_of_idle hp, hok⟩
    | some w =>
      obtain ⟨t, ht, hkept, -⟩ := engineStep_next s.tick
      exact ⟨t, (quietStep_of_pending hp).trans ht, fun a ha => hok a (by rwa [hkept] at ha)⟩
  | cons turn rest =>
    have hrest : ∀ t : State, t.agenda = rest → t.AgendaOk := fun t ht a ha =>
      hok a (by rw [hagenda]; exact List.mem_cons_of_mem _ (ht ▸ ha))
    rw [step_of_agenda_cons hagenda]
    cases turn with
    | host a =>
      obtain ⟨t, ht, hkept⟩ := hostStep_next (hok a (by rw [hagenda]; exact List.mem_cons_self))
        (s.tick.withAgenda rest)
      exact ⟨t, ht, hrest t hkept⟩
    | engine =>
      obtain ⟨t, ht, hkept, -⟩ := engineStep_next (s.tick.withAgenda rest)
      exact ⟨t, ht, hrest t hkept⟩
    | rst => exact ⟨_, takeTurn_rst _, hrest _ rfl⟩

theorem runSteps_succ {n : Nat} {s t : State} (h : step s = .next t) : runSteps (n + 1) s = runSteps n t := by
  rw [runSteps, h]

theorem runSteps_cons {n : Nat} {s t : State} {o : Host.Outcome State Fault Refusal} (h : step s = .next t)
    (ho : runSteps n t = o) : runSteps (n + 1) s = o := (runSteps_succ h).trans ho

/-- A poll of STATUS takes its turn and changes the word read alone. -/
theorem step_poll {s : State} {l : Loc} {rest : List Turn} (h : s.agenda = rdTurn l :: rest) :
    ∃ v, step s = .next { s.tick.withAgenda rest with readData := v } :=
  ⟨_, step_of_agenda_cons h⟩

/-- Settles O10, by induction on the number of polls: a poll leaves the command pending, and with no turn left the
engine completes it. -/
theorem pendingCommandEventuallyCompletes : Obligations.PendingCommandEventuallyCompletes := by
  unfold Obligations.PendingCommandEventuallyCompletes
  intro s k hp hagenda
  induction k generalizing s with
  | zero =>
    obtain ⟨w, hw⟩ := Option.ne_none_iff_exists'.1 hp
    obtain ⟨t, ht, -, -, -, ⟨hnone, -⟩ | ⟨-, htp, htd⟩⟩ := engineStep_next s.tick
    · exact absurd hnone hp
    · exact ⟨t, runSteps_succ ((step_of_agenda_nil hagenda).trans ((quietStep_of_pending hw).trans ht)), htp, htd⟩
  | succ k ih =>
    obtain ⟨v, hv⟩ := step_poll (hagenda.trans List.replicate_succ)
    rw [runSteps_succ hv]
    exact ih _ hp rfl

/-! ## CMD written twice -/

theorem step_write_cmd_of_idle {s : State} {v : Word} {rest : List Turn} (h : s.agenda = wrTurn (.reg .cmd) v :: rest)
    (hp : s.pending = none) : step s = .next ((s.tick.withAgenda rest).accept v) := by
  rw [step_of_agenda_cons h, wrTurn, takeTurn_host, hostStep_write_word, State.busWrite_reg,
    State.writeLoc_cmd_of_idle (s := s.tick.withAgenda rest) v hp]

theorem step_write_cmd_of_busy {s : State} {v : Word} {rest : List Turn} (h : s.agenda = wrTurn (.reg .cmd) v :: rest)
    (hp : s.pending ≠ none) : step s = .next { s.tick.withAgenda rest with overrun := true } := by
  rw [step_of_agenda_cons h, wrTurn, takeTurn_host, hostStep_write_word, State.busWrite_reg,
    State.writeLoc_cmd_of_busy (s := s.tick.withAgenda rest) v hp]

theorem step_engine {s : State} {i : Instr} {rest : List Turn} (h : s.agenda = .engine :: rest)
    (hp : s.pending = some (encode i)) : step s = exec i (s.tick.withAgenda rest) := by
  rw [step_of_agenda_cons h, takeTurn_engine]
  exact engineStep_of_decode_ok hp (decode_encode i)

/-- BUILD has no error (41_tree_builder.md R120). -/
theorem step_engine_build {s : State} {rest : List Turn} (h : s.agenda = .engine :: rest)
    (hp : s.pending = some (encode .build)) : step s = .next (s.tick.withAgenda rest).built.complete :=
  step_engine h hp

/-- GEN has none from a valid tree (42_code_table.md R140). -/
theorem step_engine_gen {s : State} {rest : List Turn} (h : s.agenda = .engine :: rest)
    (hp : s.pending = some (encode .gen)) (htree : s.treeValid = true) :
    step s = .next (s.tick.withAgenda rest).generated.complete :=
  (step_engine h hp).trans (congrArg Body.finish (genBody_of_tree (s := s.tick.withAgenda rest) htree))

/-- Settles O56: with BUILD still pending the second write only sets OVERRUN; after the engine's turn it is accepted,
and GEN finds the tree valid. -/
theorem commandOverrunInterleavings : Obligations.CommandOverrunInterleavings := by
  unfold Obligations.CommandOverrunInterleavings
  intro s rest hp
  constructor
  · refine ⟨_, runSteps_cons (step_write_cmd_of_idle rfl hp)
      (runSteps_cons (step_write_cmd_of_busy rfl (Option.some_ne_none _))
        (runSteps_cons (step_engine_build rfl rfl) rfl)), ?_⟩
    simp [State.built]
  · refine ⟨_, runSteps_cons (step_write_cmd_of_idle rfl hp)
      (runSteps_cons (step_engine_build rfl rfl)
        (runSteps_cons (step_write_cmd_of_idle rfl rfl)
          (runSteps_cons (step_engine_gen rfl rfl rfl) rfl))), ?_⟩
    simp [State.generated, State.built]

/-! ## CMD_LAST and IRQ -/

/-- Settles O21, by the turns a step can take: of them only acceptance and a reset write CMD_LAST. -/
theorem cmdLastChangesOnlyAtAcceptance : Obligations.CmdLastChangesOnlyAtAcceptance := by
  unfold Obligations.CmdLastChangesOnlyAtAcceptance
  intro s t
  refine ⟨s.busRead_reg (r := .cmd) rfl, fun h => ?_⟩
  rcases step_cases h with ⟨turn, rest, hagenda, hturn⟩ | ⟨-, -, hengine⟩ | ⟨-, rfl⟩
  · cases turn with
    | host a =>
      rcases hostStep_cases hturn with ⟨addr, rfl, rfl⟩ | ⟨addr, v, rfl, heffect⟩
      · exact .inl rfl
      · cases heffect with
        | accept hl hp => exact .inr (.inl ⟨rest, addr, v, hagenda, hl, hp, rfl⟩)
        | reset hl hv => exact .inr (.inr ⟨rfl, _, rest, hagenda, .inr ⟨_, rfl, addr, v, rfl, hl, hv⟩⟩)
        | _ => exact .inl rfl
    | engine =>
      obtain ⟨u, hu, -, -, hcmd, -⟩ := engineStep_next (s.tick.withAgenda rest)
      obtain rfl := Host.Outcome.next.inj (hu.symm.trans hturn)
      exact .inl hcmd
    | rst =>
      obtain rfl := Host.Outcome.next.inj hturn
      exact .inr (.inr ⟨rfl, _, rest, hagenda, .inl rfl⟩)
  · obtain ⟨u, hu, -, -, hcmd, -⟩ := engineStep_next s.tick
    obtain rfl := Host.Outcome.next.inj (hu.symm.trans hengine)
    exact .inl hcmd
  · exact .inl rfl

/-- The engine never takes IRQ away: it keeps IRQ_EN, and DONE unless it sets it. -/
theorem irq_of_engineStep {s t : State} (h : engineStep s = .next t) (hs : s.irq = true) : t.irq = true := by
  obtain ⟨u, hu, -, hirq, -, hcases⟩ := engineStep_next s
  obtain rfl := Host.Outcome.next.inj (hu.symm.trans h)
  rcases hcases with ⟨-, rfl⟩ | ⟨-, -, hdone⟩
  · exact hs
  · rw [State.irq, Bool.and_eq_true] at hs
    rw [State.irq, hirq, hdone, hs.1, Bool.and_self]

/-- Settles O27: the engine keeps IRQ, and a host write that takes it away clears IRQ_EN or DONE. -/
theorem irqStaysUntilCleared : Obligations.IrqStaysUntilCleared := by
  unfold Obligations.IrqStaysUntilCleared
  refine fun s t => ⟨rfl, fun h hs ht => ?_⟩
  rcases step_cases h with ⟨turn, rest, hagenda, hturn⟩ | ⟨-, -, hengine⟩ | ⟨-, rfl⟩
  · have hs' : (s.tick.withAgenda rest).irq = true := hs
    refine ⟨turn, rest, hagenda, ?_⟩
    cases turn with
    | host a =>
      rcases hostStep_cases hturn with ⟨addr, rfl, rfl⟩ | ⟨addr, v, rfl, heffect⟩
      · exact absurd hs' (Bool.eq_false_iff.1 ht)
      · refine .inr ⟨addr, v, rfl, ?_⟩
        rw [State.irq, Bool.and_eq_true] at hs'
        obtain ⟨hirqEn, hdone⟩ := hs'
        cases heffect with
        | reset hl hv => exact .inr (.inl ⟨hl, .inl hv⟩)
        | irqEn hl hv =>
          have hv0 : (v.getLsbD 0 && (s.tick.withAgenda rest).done) = false := ht
          exact .inr (.inl ⟨hl, .inr (by rwa [hdone, Bool.and_true] at hv0)⟩)
        | flags hl =>
          rw [State.irq, State.clearFlags_irqEn, State.clearFlags_done, hirqEn, hdone] at ht
          exact .inl ⟨hl, by simpa using ht⟩
        | accept hl hp => exact .inr (.inr ⟨hl, hp⟩)
        | _ => exact absurd hs (Bool.eq_false_iff.1 ht)
    | engine => exact absurd (irq_of_engineStep hturn hs') (Bool.eq_false_iff.1 ht)
    | rst => exact .inl rfl
  · exact absurd (irq_of_engineStep (s := s.tick) hengine hs) (Bool.eq_false_iff.1 ht)
  · exact absurd hs (Bool.eq_false_iff.1 ht)

/-! ## What host accesses do not reach -/

/-- Settles O24: while busy a write is refused, ignored, or one of the two control registers' own. -/
theorem hostCannotDisturbPendingCommand : Obligations.HostCannotDisturbPendingCommand := by
  unfold Obligations.HostCannotDisturbPendingCommand
  intro s t a hp hsoft h
  rcases hostStep_cases h with ⟨addr, rfl, rfl⟩ | ⟨addr, v, rfl, heffect⟩
  · rfl
  · cases heffect with
    | reset hl hv => exact absurd ⟨addr, v, rfl, hl, hv⟩ hsoft
    | accept hl hidle => exact absurd hidle hp
    | arg hidle => exact absurd hidle hp
    | ilen hidle => exact absurd hidle hp
    | blen hidle => exact absurd hidle hp
    | symIn i hl hidle => exact absurd hidle hp
    | bits w hl hidle => exact absurd hidle hp
    | _ => rfl

theorem regAt_eq_some {w : Nat} {r : Reg} (h : regAt w = some r) : w = regWord r := by
  unfold regAt at h
  split at h <;> cases h <;> rfl

/-- The words of the address map a host write can have an effect on. -/
theorem writable_locateWord {p : Params} {w : Nat} (h : writable (locateWord p w) = true) :
    (1 ≤ w ∧ w ≤ 6) ∨ (0x4000 ≤ w ∧ w < 0x8000) ∨ 0xC000 ≤ w := by
  cases hr : regAt w with
  | some r =>
    obtain rfl := regAt_eq_some hr
    rw [locateWord_regWord] at h
    cases r with
    | ctrl | status | cmd | arg | ilen | blen => exact .inl (by decide)
    | _ => cases h
  | none =>
    simp only [locateWord, hr] at h
    split_ifs at h <;> simp [writable] at h <;> omega

/-- Settles O25: no write but a soft reset names a field of the derived state, and a read-only word is not
writable. -/
theorem hostWritesNeverReachDerivedState : Obligations.HostWritesNeverReachDerivedState := by
  unfold Obligations.HostWritesNeverReachDerivedState
  refine fun s => ⟨fun t a hsoft h => ?_, fun addr v haddr => ?_⟩
  · rcases hostStep_cases h with ⟨addr, rfl, rfl⟩ | ⟨addr, v, rfl, heffect⟩
    · exact ⟨rfl, rfl, rfl, rfl, rfl, rfl, rfl, rfl, rfl, rfl, rfl, rfl, rfl, .inr ⟨rfl, rfl⟩⟩
    · cases heffect with
      | reset hl hv => exact absurd ⟨addr, v, rfl, hl, hv⟩ hsoft
      | accept hl hp =>
        exact ⟨rfl, rfl, rfl, rfl, rfl, rfl, rfl, rfl, rfl, rfl, rfl, rfl, rfl, .inl ⟨addr, v, rfl, hl, hp⟩⟩
      | _ => exact ⟨rfl, rfl, rfl, rfl, rfl, rfl, rfl, rfl, rfl, rfl, rfl, rfl, rfl, .inr ⟨rfl, rfl⟩⟩
  · refine s.writeLoc_of_not_writable (Bool.eq_false_iff.2 fun hw => ?_) v
    have := writable_locateWord hw
    omega

end Sys2Proof.Machine
end

section
/-! SUPPORT. The address map and the words the host reads and writes (10_state.md sections 2 and 3,
70_reset_and_hazards.md R255): the offset of every location, STATUS bit by bit, and the windows. -/

namespace Sys2Proof.Machine

/-! ## The address map -/

/-- The word an offset of the map reaches. -/
theorem locate_ofNat (p : Params) {n : Nat} (h : n < 2 ^ 20) : locate p (BitVec.ofNat 20 n) = locateWord p (n / 4) := by
  rw [locate, BitVec.toNat_ofNat, Nat.mod_eq_of_lt h]

theorem symbol_ofNat_toNat (y : Symbol) : BitVec.ofNat 8 y.toNat = y := by
  rw [BitVec.ofNat_toNat, BitVec.setWidth_eq]

section
variable (p : Params) (y : Symbol)

theorem locate_freq : locate p (BitVec.ofNat 20 (0x00400 + 4 * y.toNat)) = .freq y := by
  rw [locate_ofNat p (by omega), locateWord, regAt_eq_none (by omega),
    show (0x400 + 4 * y.toNat) / 4 = 0x100 + y.toNat by omega]
  simp only
  rw [if_pos (by omega), Nat.add_sub_cancel_left, symbol_ofNat_toNat]

theorem locate_clen : locate p (BitVec.ofNat 20 (0x00800 + 4 * y.toNat)) = .clen y := by
  rw [locate_ofNat p (by omega), locateWord, regAt_eq_none (by omega),
    show (0x800 + 4 * y.toNat) / 4 = 0x200 + y.toNat by omega]
  simp only
  rw [if_neg (by omega), if_pos (by omega), Nat.add_sub_cancel_left, symbol_ofNat_toNat]

theorem locate_codebits {w : Nat} (hw : w < 8) :
    locate p (BitVec.ofNat 20 (0x01000 + 32 * y.toNat + 4 * w)) = .codebits y w := by
  have hy := y.isLt
  rw [locate_ofNat p (by omega), locateWord, regAt_eq_none (by omega),
    show (0x1000 + 32 * y.toNat + 4 * w) / 4 = 0x400 + (8 * y.toNat + w) by omega]
  simp only
  rw [if_neg (by omega), if_neg (by omega), if_pos (by omega), Nat.add_sub_cancel_left,
    show (8 * y.toNat + w) / 8 = y.toNat by omega, show (8 * y.toNat + w) % 8 = w by omega, symbol_ofNat_toNat]

variable {i : Nat}

theorem locate_nodeW (hi : i < 511) : locate p (BitVec.ofNat 20 (0x03000 + 4 * i)) = .nodeW i := by
  rw [locate_ofNat p (by omega), locateWord, regAt_eq_none (by omega), show (0x3000 + 4 * i) / 4 = 0xC00 + i by omega]
  simp only
  rw [if_neg (by omega), if_neg (by omega), if_neg (by omega), if_pos (by omega), Nat.add_sub_cancel_left]

theorem locate_nodeL (hi : i < 511) : locate p (BitVec.ofNat 20 (0x03800 + 4 * i)) = .nodeL i := by
  rw [locate_ofNat p (by omega), locateWord, regAt_eq_none (by omega), show (0x3800 + 4 * i) / 4 = 0xE00 + i by omega]
  simp only
  rw [if_neg (by omega), if_neg (by omega), if_neg (by omega), if_neg (by omega), if_pos (by omega),
    Nat.add_sub_cancel_left]

end

section
variable {p : Params} (hlegal : p.legal = true) {i : Nat}
include hlegal

/-- The capacities of R6 keep the three buffers inside their windows. -/
theorem Params.legal_bounds : p.symCap ≤ 0x4000 ∧ p.bitCap / 32 ≤ 0x4000 ∧ p.bitCap % 32 = 0 := by
  simp only [Params.legal, Bool.and_eq_true, decide_eq_true_eq] at hlegal
  omega

theorem locate_symIn (hi : i < p.symCap) : locate p (BitVec.ofNat 20 (0x10000 + 4 * i)) = .symIn i := by
  obtain ⟨hsym, -, -⟩ := Params.legal_bounds hlegal
  rw [locate_ofNat p (by omega), locateWord, regAt_eq_none (by omega), show (0x10000 + 4 * i) / 4 = 0x4000 + i by omega]
  simp only
  rw [if_neg (by omega), if_neg (by omega), if_neg (by omega), if_neg (by omega), if_neg (by omega), if_pos (by omega),
    Nat.add_sub_cancel_left, if_pos hi]

theorem locate_symOut (hi : i < p.symCap) : locate p (BitVec.ofNat 20 (0x20000 + 4 * i)) = .symOut i := by
  obtain ⟨hsym, -, -⟩ := Params.legal_bounds hlegal
  rw [locate_ofNat p (by omega), locateWord, regAt_eq_none (by omega), show (0x20000 + 4 * i) / 4 = 0x8000 + i by omega]
  simp only
  rw [if_neg (by omega), if_neg (by omega), if_neg (by omega), if_neg (by omega), if_neg (by omega), if_neg (by omega),
    if_pos (by omega), Nat.add_sub_cancel_left, if_pos hi]

theorem locate_bits (hi : i < p.bitCap / 32) : locate p (BitVec.ofNat 20 (0x30000 + 4 * i)) = .bits i := by
  obtain ⟨-, hbit, -⟩ := Params.legal_bounds hlegal
  rw [locate_ofNat p (by omega), locateWord, regAt_eq_none (by omega), show (0x30000 + 4 * i) / 4 = 0xC000 + i by omega]
  simp only
  rw [if_neg (by omega), if_neg (by omega), if_neg (by omega), if_neg (by omega), if_neg (by omega), if_neg (by omega),
    if_neg (by omega), if_pos (by omega), Nat.add_sub_cancel_left, if_pos hi]

end

/-- Settles O13, window by window. -/
theorem registerMapOffsets : Obligations.RegisterMapOffsets := by
  unfold Obligations.RegisterMapOffsets
  intro p hlegal
  have hreg := locate_locOffset_reg p
  exact ⟨hreg .id, hreg .ctrl, hreg .status, hreg .cmd, hreg .arg, hreg .ilen, hreg .blen, hreg .olen, hreg .total,
    hreg .ndistinct, hreg .root, hreg .nnodes, hreg .erridx, hreg .maxlen, hreg .paramSymCap, hreg .paramBitCap,
    fun y => ⟨locate_freq p y, locate_clen p y, fun w hw => locate_codebits p y hw⟩,
    fun i hi => ⟨locate_nodeW p hi, locate_nodeL p hi⟩,
    fun i hi => ⟨locate_symIn hlegal hi, locate_symOut hlegal hi⟩, fun w hw => locate_bits hlegal hw⟩

/-- Settles O12: an access depends on its offset through the word it reaches alone. -/
theorem readsHaveNoSideEffect : Obligations.ReadsHaveNoSideEffect := by
  unfold Obligations.ReadsHaveNoSideEffect
  intro s a b v hab
  have hloc : locate s.params a = locate s.params b := by rw [locate, locate, hab]
  exact ⟨hostStep_read_word s a, by rw [State.busRead, hloc, State.busRead],
    by rw [State.busWrite, hloc, State.busWrite]⟩

/-! ## STATUS -/

theorem flagBit_getLsbD (b : Bool) (i : Nat) {j : Nat} (hj : j < 32) :
    (flagBit b i).getLsbD j = (b && decide (i = j)) := by
  cases b with
  | false => simp [flagBit]
  | true =>
    simp only [flagBit, if_true, BitVec.getLsbD_shiftLeft, hj, decide_true, BitVec.getLsbD_one, Bool.true_and]
    by_cases h : i = j
    · simp [h]
    · simp [h]
      omega

/-- STATUS bit by bit (R24): the seven flags, and ERRCODE from bit 8. -/
theorem State.statusWord_getLsbD (s : State) {j : Nat} (hj : j < 32) :
    s.statusWord.getLsbD j =
      ((s.busy && decide (0 = j)) || (s.done && decide (1 = j)) || (s.err && decide (2 = j)) ||
        (s.overrun && decide (3 = j)) || (s.accessErr && decide (4 = j)) || (s.treeValid && decide (5 = j)) ||
        (s.codesValid && decide (6 = j)) || (!decide (j < 8) && s.errCode.getLsbD (j - 8))) := by
  simp only [State.statusWord, BitVec.getLsbD_or, flagBit_getLsbD _ _ hj, BitVec.getLsbD_shiftLeft,
    BitVec.getLsbD_setWidth, hj, decide_true, Bool.true_and, show j - 8 < 32 by omega]

/-- The field 11:8 of STATUS is ERRCODE. -/
theorem State.statusWord_errCode (s : State) : s.statusWord.toNat / 2 ^ 8 % 2 ^ 4 = s.errCode.toNat := by
  have hfield : s.statusWord.extractLsb' 8 4 = s.errCode := by
    refine BitVec.eq_of_getLsbD_eq fun i hi => ?_
    rw [BitVec.getLsbD_extractLsb', s.statusWord_getLsbD (by omega)]
    simp [hi, show ∀ n, n < 8 → n ≠ 8 + i by omega]
  rw [← hfield, BitVec.extractLsb'_toNat, Nat.shiftRight_eq_div_pow]

/-- Settles O16: STATUS is read, idle or busy, without a draw, and its bits are its flags. -/
theorem statusWordLayout : Obligations.StatusWordLayout := by
  unfold Obligations.StatusWordLayout
  intro s
  have hread : s.busRead 0x00008#20 = s.statusWord := s.busRead_reg (r := .status) rfl
  have hcode : s.statusWord.toNat / 2 ^ 8 % 2 ^ 4 = s.errCode.toNat := s.statusWord_errCode
  rw [hread, hcode]
  have flag {j : Nat} (hj : j < 32) {b : Bool} := (s.statusWord_getLsbD hj).trans (c := b)
  refine ⟨flag (by decide) (by simp [State.busy]), flag (by decide) (by simp), ?_, flag (by decide) (by simp),
    flag (by decide) (by simp), flag (by decide) (by simp), flag (by decide) (by simp), flag (by decide) (by simp),
    fun i hi => ?_, ?_⟩
  · rw [s.statusWord_getLsbD (by decide)]
    simp [State.err, BitVec.toNat_eq]
  · rcases Nat.lt_or_ge i 32 with hlt | hge
    · rw [s.statusWord_getLsbD hlt, BitVec.getLsbD_of_ge _ _ (by omega)]
      simp [show ∀ n, n < 8 → n ≠ i by omega]
    · exact BitVec.getLsbD_of_ge _ _ hge
  · rw [State.errCode]
    rcases s.error with _ | k
    · rfl
    · cases k <;> rfl

/-! ## Reads and writes of an idle and of a busy block -/

theorem State.busRead_of_idle {s : State} (h : s.pending = none) (a : Offset) :
    s.busRead a = s.readLoc (locate s.params a) := by
  rw [State.busRead, s.busy_of_none h, Bool.false_and, if_neg Bool.false_ne_true]

theorem State.busRead_of_busy {s : State} (h : s.pending ≠ none) (a : Offset) :
    s.busRead a = if readableBusy (locate s.params a) then s.readLoc (locate s.params a) else s.readDraw := by
  rw [State.busRead, s.busy_iff.2 (Option.ne_none_iff_exists'.1 h)]
  cases readableBusy (locate s.params a) <;> rfl

theorem State.busRead_reg_of_idle {s : State} (h : s.pending = none) (r : Reg) :
    s.busRead (locOffset (.reg r)) = s.readReg r := by
  rw [State.busRead_of_idle h, locate_locOffset_reg, State.readLoc]

/-- A busy block reads STATUS as an idle one does, with BUSY set (R255). -/
theorem State.statusWord_of_busy {s : State} (h : s.pending ≠ none) :
    s.statusWord = ({ s with pending := none } : State).statusWord ||| 1#32 := by
  have hbusy : flagBit s.busy 0 = flagBit ({ s with pending := none } : State).busy 0 ||| 1#32 := by
    rw [s.busy_iff.2 (Option.ne_none_iff_exists'.1 h), State.busy_of_none _ rfl]
    rfl
  have hrest : ∀ a b c d e f g x : Word, a ||| 1#32 ||| b ||| c ||| d ||| e ||| f ||| g ||| x =
      a ||| b ||| c ||| d ||| e ||| f ||| g ||| x ||| 1#32 := by
    intro a b c d e f g x
    ac_rfl
  rw [State.statusWord, hbusy, hrest]
  rfl

/-- Settles O23, location by location: which reads a busy block answers, and which writes it protects. -/
theorem busyBlockProtectsItsInputs : Obligations.BusyBlockProtectsItsInputs := by
  unfold Obligations.BusyBlockProtectsItsInputs
  refine fun s a v => ⟨fun hp => State.busRead_of_idle hp a, fun hp => ⟨?_, ⟨?_, ?_, ?_⟩, ?_, ?_⟩⟩
  · intro hloc
    rw [State.busWrite]
    rcases hloc with h | h | h | ⟨i, h⟩ | ⟨w, h⟩ <;> rw [h] <;> exact State.protectedWrite_of_busy hp _
  · intro hloc
    rw [State.busRead_of_busy hp, State.busRead_of_idle (s := { s with pending := none }) rfl]
    simp only [List.mem_cons, List.not_mem_nil, or_false] at hloc
    rcases hloc with h | h | h | h | h | h <;> rw [h] <;> rfl
  · intro hloc
    rw [State.busRead_of_busy hp, State.busRead_of_idle (s := { s with pending := none }) rfl, hloc]
    exact State.statusWord_of_busy hp
  · intro hloc
    have hnot : readableBusy (locate s.params a) = false := by
      simp only [List.mem_cons, List.not_mem_nil, or_false, not_or] at hloc
      unfold readableBusy
      split <;> simp_all
    rw [State.busRead_of_busy hp, hnot]
    rfl
  · exact State.busWrite_of_reserved v
  · intro hloc
    rw [State.busWrite, State.busWrite]
    rcases hloc with h | h <;> rw [h]
    · rfl
    · cases hv : v.getLsbD 1 with
      | true => rw [s.writeLoc_ctrl_of_set hv, State.writeLoc_ctrl_of_set _ hv]; rfl
      | false => rw [s.writeLoc_ctrl_of_clear hv, State.writeLoc_ctrl_of_clear _ hv]

/-! ## Inputs -/

theorem zext32_toNat {n : Nat} (x : BitVec n) (hn : n ≤ 32) : (zext32 x).toNat = x.toNat :=
  BitVec.toNat_setWidth_of_le hn

theorem setWidth_eight (v : Word) : v.setWidth 8 = BitVec.ofNat 8 (v.toNat % 256) := by
  apply BitVec.eq_of_toNat_eq
  simp

/-- Settles O22: each input location is stored at its offset by an idle block, and read back from there. -/
theorem hostInputsStore : Obligations.HostInputsStore := by
  unfold Obligations.HostInputsStore
  intro s i v hlegal hp
  have stores (r : Reg) (t : State) (ht : s.writeLoc (.reg r) v = s.protectedWrite t) :
      s.busWrite (locOffset (.reg r)) v = t := by
    rw [State.busWrite_reg, ht, State.protectedWrite_of_idle hp]
  refine ⟨?_, ?_, ?_, fun hi => ?_, fun hi => ?_⟩
  · have hwrite : s.busWrite 0x00010#20 v = { s with arg := v } := stores .arg _ rfl
    exact ⟨hwrite, by rw [hwrite]; exact State.busRead_reg_of_idle (s := { s with arg := v }) hp .arg⟩
  · have hwrite : s.busWrite 0x00014#20 v = { s with ilen := v } := stores .ilen _ rfl
    exact ⟨hwrite, by rw [hwrite]; exact State.busRead_reg_of_idle (s := { s with ilen := v }) hp .ilen⟩
  · have hwrite : s.busWrite 0x00018#20 v = { s with blen := v } := stores .blen _ rfl
    exact ⟨hwrite, by rw [hwrite]; exact State.busRead_reg_of_idle (s := { s with blen := v }) hp .blen⟩
  · have hwrite : s.busWrite (BitVec.ofNat 20 (0x10000 + 4 * i)) v =
        { s with symIn := Memory.write s.symIn i (v.setWidth 8) } := by
      rw [State.busWrite, locate_symIn hlegal hi]
      exact State.protectedWrite_of_idle hp _
    refine ⟨_, hwrite, fun j => by rw [Memory.read_write, setWidth_eight], ?_⟩
    rw [hwrite, State.busRead_of_idle (s := { s with symIn := Memory.write s.symIn i (v.setWidth 8) }) hp,
      locate_symIn (p := s.params) hlegal hi, State.readLoc, State.symInAt, Memory.read_write_same, Option.getD_some,
      zext32_toNat _ (by decide), BitVec.toNat_setWidth]
  · have hwrite : s.busWrite (BitVec.ofNat 20 (0x30000 + 4 * i)) v =
        { s with bits := Memory.write s.bits i v } := by
      rw [State.busWrite, locate_bits hlegal hi]
      exact State.protectedWrite_of_idle hp _
    refine ⟨_, hwrite, fun j => Memory.read_write s.bits i j v, ?_⟩
    rw [hwrite, State.busRead_of_idle (s := { s with bits := Memory.write s.bits i v }) hp,
      locate_bits (p := s.params) hlegal hi,
      State.readLoc, Memory.read_write_same, Option.getD_some]

/-! ## Results -/

/-- A word with bit 31 set above a narrower value. -/
theorem msb_or_zext32_toNat {n : Nat} (x : BitVec n) (hn : n ≤ 31) :
    (0x80000000#32 ||| zext32 x).toNat = 2 ^ 31 + x.toNat := by
  have hx : x.toNat < 2 ^ 31 := x.isLt.trans_le (Nat.pow_le_pow_right (by decide) hn)
  calc (0x80000000#32 ||| zext32 x).toNat = 2 ^ 31 * 1 ||| x.toNat := by
        rw [BitVec.toNat_or, zext32_toNat x (by omega)]
        rfl
    _ = 2 ^ 31 * 1 + x.toNat := (Nat.two_pow_add_eq_or_of_lt hx 1).symm
    _ = 2 ^ 31 + x.toNat := by rw [Nat.mul_one]

/-- Two node indices in one word. -/
theorem shift_or_zext32_toNat (l r : NodeIdx) :
    ((zext32 r <<< 16) ||| zext32 l).toNat = r.toNat * 2 ^ 16 + l.toNat := by
  have hl : l.toNat < 2 ^ 16 := l.isLt.trans (by decide)
  have hr : r.toNat * 2 ^ 16 < 2 ^ 32 := by have := r.isLt; omega
  calc ((zext32 r <<< 16) ||| zext32 l).toNat = 2 ^ 16 * r.toNat ||| l.toNat := by
        rw [BitVec.toNat_or, BitVec.toNat_shiftLeft, zext32_toNat r (by decide), zext32_toNat l (by decide),
          Nat.shiftLeft_eq, Nat.mod_eq_of_lt hr, Nat.mul_comm]
    _ = 2 ^ 16 * r.toNat + l.toNat := (Nat.two_pow_add_eq_or_of_lt hl r.toNat).symm
    _ = r.toNat * 2 ^ 16 + l.toNat := by rw [Nat.mul_comm]

theorem Node.linkWord_toNat (x : Node) :
    x.linkWord.toNat = if x.isLeaf then 2 ^ 31 + x.sym.toNat else x.right.toNat * 2 ^ 16 + x.left.toNat := by
  rw [Node.linkWord]
  split
  · exact msb_or_zext32_toNat x.sym (by decide)
  · exact shift_or_zext32_toNat x.left x.right

theorem State.nodeAt_of_read {s : State} {i : Nat} {x : Node} (hi : i < 511) (hx : Memory.read s.nodes i = some x) :
    s.nodeAt (BitVec.ofNat 9 i) = x := by
  rw [State.nodeAt, BitVec.toNat_ofNat, Nat.mod_eq_of_lt (by omega), hx]

/-- Settles O26: an idle block reads at every offset the value its location holds. -/
theorem readOnlyWindows : Obligations.ReadOnlyWindows := by
  unfold Obligations.ReadOnlyWindows
  intro s y i hlegal hp
  have hread := State.busRead_of_idle hp
  have hreg := State.busRead_reg_of_idle hp
  refine ⟨⟨hreg .olen, hreg .total, ?_, fun hroot => ?_, fun r hroot => ?_, ?_, hreg .erridx, ?_⟩, ?_,
    fun table hvalid htable hlen => ⟨?_, fun w b hw hb => ?_⟩, fun x hi hvalid hlt hx => ?_, fun z hi hlt hz => ?_,
    fun z hi hz => ?_, fun v hi hv => ?_⟩
  · rw [show s.busRead 0x00024#20 = zext32 s.ndistinct from hreg .ndistinct, zext32_toNat _ (by decide)]
  · rw [show s.busRead 0x00028#20 = s.rootWord from hreg .root, State.rootWord, hroot]
  · rw [show s.busRead 0x00028#20 = s.rootWord from hreg .root, State.rootWord, hroot]
    exact msb_or_zext32_toNat r (by decide)
  · rw [show s.busRead 0x0002C#20 = zext32 s.nnodes from hreg .nnodes, zext32_toNat _ (by decide)]
  · rw [show s.busRead 0x00034#20 = zext32 s.maxlen from hreg .maxlen, zext32_toNat _ (by decide)]
  · rw [hread, locate_freq, State.readLoc]
  · rw [hread, locate_clen, State.readLoc, if_pos hvalid, State.codeAt, htable, BitVec.toNat_ofNat]
    exact Nat.mod_eq_of_lt (by simp only; omega)
  · rw [hread, locate_codebits _ y hw, State.readLoc, if_pos hvalid, State.codeAt, htable]
    exact packWord_lsb _ w hb
  · have hreadable : s.nodeReadable i = true := by simp [State.nodeReadable, hvalid, hlt]
    rw [hread, hread, locate_nodeW _ hi, locate_nodeL _ hi, State.readLoc, State.readLoc, if_pos hreadable,
      if_pos hreadable, State.nodeAt_of_read hi hx]
    exact ⟨rfl, x.linkWord_toNat⟩
  · rw [hread, locate_symOut hlegal hi, State.readLoc, if_pos hlt, hz, Option.getD_some, zext32_toNat z (by decide)]
  · rw [hread, locate_symIn hlegal hi, State.readLoc, State.symInAt, hz, Option.getD_some, zext32_toNat z (by decide)]
  · rw [hread, locate_bits hlegal hi, State.readLoc, hv, Option.getD_some]

end Sys2Proof.Machine
end

section
/-! SUPPORT. The invariant of 10_state.md section 4 (R45 to R48, R36, R51): the reset state meets it, and every body,
every completion and every host access keeps it. -/

namespace Sys2Proof.Machine

/-! ## The parts of the invariant a command's body can touch -/

/-- The invariant without the latch and the error record, which bodies do not write. -/
structure DataOk (s : State) : Prop where
  params : s.params.legal = true
  freq : s.FreqOk
  tree : s.TreeOk
  codes : s.CodesOk
  mem : s.MemOk
  output : s.OutputOk

theorem State.Inv.dataOk {s : State} (h : s.Inv) : DataOk s := ⟨h.params, h.freq, h.tree, h.codes, h.mem, h.output⟩

theorem freqOk_empty {s : State} (hfreq : s.freq = Vector.replicate 256 0#32) (htotal : s.total = 0#32)
    (hnd : s.ndistinct = 0#9) : s.FreqOk := by
  rw [State.FreqOk, hfreq, htotal, hnd, freqSum_replicate_zero, distinctCount_replicate_zero]
  exact ⟨rfl, rfl⟩

/-- Without a valid flag no table is claimed. -/
theorem treeOk_of_invalid {s : State} (h : s.treeValid = false) : s.TreeOk := fun hvalid => by simp [h] at hvalid

theorem codesOk_of_invalid {s : State} (h : s.codesValid = false) : s.CodesOk := fun hvalid => by simp [h] at hvalid

theorem memory_nil_ok {α : Type} (n : Nat) : Memory.wf ([] : Memory α) ∧ Memory.below ([] : Memory α) n :=
  ⟨List.Pairwise.nil, fun _ hc => absurd hc List.not_mem_nil⟩

theorem outputOk_of_olen_zero {s : State} (h : s.olen = 0#32) : s.OutputOk := by
  rw [State.OutputOk, h]
  exact ⟨Nat.zero_le _, fun i hi => absurd hi (Nat.not_lt_zero i)⟩

/-- Writing a list from index 0 on, within the bound, keeps an array in form. -/
theorem memory_writeFrom_ok {α : Type} {m : Memory α} {n : Nat} (h : Memory.wf m ∧ Memory.below m n) {vs : List α}
    (hlen : vs.length ≤ n) : Memory.wf (Memory.writeFrom m 0 vs) ∧ Memory.below (Memory.writeFrom m 0 vs) n :=
  ⟨Memory.wf_writeFrom vs 0 h.1, Memory.below_writeFrom vs 0 h.2 (by omega)⟩

/-! ## The reset state -/

theorem State.inv_resetWith {p : Params} (hp : p.legal = true) : (State.resetWith p).Inv where
  params := hp
  freq := freqOk_empty rfl rfl rfl
  latch := .inl rfl
  errIdx := fun _ => rfl
  tree := treeOk_of_invalid rfl
  codes := codesOk_of_invalid rfl
  mem := ⟨memory_nil_ok _, memory_nil_ok _, memory_nil_ok _, memory_nil_ok _⟩
  output := outputOk_of_olen_zero rfl

/-- Settles O58: the tables and the buffers are empty, no flag is set and no command is pending. -/
theorem resetMeetsTheInvariant : Obligations.ResetMeetsTheInvariant := by
  unfold Obligations.ResetMeetsTheInvariant
  exact fun p hp => State.inv_resetWith hp

theorem State.Inv.hardReset {s : State} (h : s.Inv) : s.hardReset.Inv :=
  have ⟨params, freq, latch, errIdx, tree, codes, mem, output⟩ := State.inv_resetWith h.params
  ⟨params, freq, latch, errIdx, tree, codes, mem, output⟩

/-! ## FREQ_SET on the table -/

theorem perm_cons_erase_symbol (y : Symbol) : symbols.Perm (y :: symbols.erase y) :=
  List.perm_cons_erase (mem_symbols y)

theorem ne_of_mem_erase_symbol {y z : Symbol} (h : z ∈ symbols.erase y) : z ≠ y :=
  (symbols_nodup.mem_erase_iff.1 h).1

section
variable (freq : Vector Word 256) (y : Symbol) (c : Word)

/-- Replacing one count replaces it in the sum. -/
theorem freqSum_set : freqSum (freq.set y.toNat c y.isLt) + (entry freq y).toNat = freqSum freq + c.toNat := by
  have hrest : (symbols.erase y).map (fun z => (entry (freq.set y.toNat c y.isLt) z).toNat) =
      (symbols.erase y).map (fun z => (entry freq z).toNat) :=
    List.map_congr_left fun z hz => by rw [entry_set, if_neg (ne_of_mem_erase_symbol hz)]
  have hperm := perm_cons_erase_symbol y
  rw [freqSum, freqSum, (hperm.map _).sum_eq, (hperm.map (fun z => (entry freq z).toNat)).sum_eq, List.map_cons,
    List.map_cons, List.sum_cons, List.sum_cons, hrest, entry_set, if_pos rfl]
  omega

/-- A first count makes one more symbol; any other count makes none. -/
theorem distinctCount_set (hc : c ≠ 0#32) :
    distinctCount (freq.set y.toNat c y.isLt) = distinctCount freq + if entry freq y = 0#32 then 1 else 0 := by
  have hrest : (symbols.erase y).countP (fun z => entry (freq.set y.toNat c y.isLt) z != 0#32) =
      (symbols.erase y).countP (fun z => entry freq z != 0#32) :=
    List.countP_congr fun z hz => by rw [entry_set, if_neg (ne_of_mem_erase_symbol hz)]
  have hperm := perm_cons_erase_symbol y
  rw [distinctCount, distinctCount, hperm.countP_eq, hperm.countP_eq, List.countP_cons, List.countP_cons, hrest,
    entry_set, if_pos rfl]
  by_cases h : entry freq y = 0#32 <;> simp [h, hc]

end

/-- FREQ_SET's TOTAL and NDISTINCT are those of its table (R45). -/
theorem freqOk_freqSet {s : State} (hok : s.FreqOk) {y : Symbol} (hc : s.arg ≠ 0#32)
    (hfits : s.totalWith y s.arg ≤ 2 ^ 32 - 1) :
    (s.setFreq (s.freq.set y.toNat s.arg y.isLt) (BitVec.ofNat 32 (s.totalWith y s.arg))
      (if entry s.freq y = 0#32 then s.ndistinct + 1#9 else s.ndistinct)).FreqOk := by
  have hexact : (BitVec.ofNat 32 (s.totalWith y s.arg)).toNat = s.totalWith y s.arg :=
    Nat.mod_eq_of_lt (Nat.lt_of_le_pred (by decide) hfits)
  constructor
  · have hset := freqSum_set s.freq y s.arg
    have htotal := hok.totalWith_add_entry y s.arg
    have hsum := hok.1
    rw [State.setFreq_total, State.setFreq_freq, hexact]
    omega
  · rw [State.setFreq_ndistinct, State.setFreq_freq, distinctCount_set _ _ _ hc]
    split
    · rw [hok.ndistinct_succ_toNat, hok.2]
    · exact hok.2

/-! ## The bodies -/

section
variable {s : State} (h : DataOk s)
include h

theorem DataOk.setFreq {freq : Vector Word 256} {total : Word} {nd : BitVec 9}
    (hok : (s.setFreq freq total nd).FreqOk) : DataOk (s.setFreq freq total nd) where
  params := h.params
  freq := hok
  tree := treeOk_of_invalid rfl
  codes := codesOk_of_invalid rfl
  mem := h.mem
  output := h.output

theorem DataOk.setBits {bits : Memory Word} (hbits : Memory.wf bits ∧ Memory.below bits (s.params.bitCap / 32))
    (len : Word) : DataOk { s with bits := bits, blen := len } where
  params := h.params
  freq := h.freq
  tree := h.tree
  codes := h.codes
  mem := ⟨h.mem.1, h.mem.2.1, h.mem.2.2.1, hbits⟩
  output := h.output

theorem DataOk.dropOutput : DataOk s.dropOutput where
  params := h.params
  freq := h.freq
  tree := h.tree
  codes := h.codes
  mem := h.mem
  output := outputOk_of_olen_zero rfl

theorem DataOk.voidOutput : DataOk s.voidOutput where
  params := h.params
  freq := h.freq
  tree := h.tree
  codes := h.codes
  mem := ⟨h.mem.1, h.mem.2.1, memory_nil_ok _, h.mem.2.2.2⟩
  output := outputOk_of_olen_zero rfl

/-- An output within SYM_CAP is written whole, so every entry below OLEN holds a value. -/
theorem DataOk.setOutput {out : List Symbol} (hlen : out.length ≤ s.params.symCap) : DataOk (s.setOutput out) where
  params := h.params
  freq := h.freq
  tree := h.tree
  codes := h.codes
  mem := ⟨h.mem.1, h.mem.2.1, memory_writeFrom_ok h.mem.2.2.1 hlen, h.mem.2.2.2⟩
  output := by
    obtain ⟨hsym, -, -⟩ := Params.legal_bounds h.params
    have holen : (s.setOutput out).olen.toNat = out.length := by
      rw [State.setOutput_olen, BitVec.toNat_ofNat]
      exact Nat.mod_eq_of_lt (by omega)
    rw [State.OutputOk, holen]
    refine ⟨hlen, fun i hi => ?_⟩
    rw [State.setOutput_symOut, Memory.read_writeFrom_zero_of_lt _ hi, List.getElem?_eq_getElem hi]
    exact Option.some_ne_none _

theorem DataOk.clearDerived : DataOk s.clearDerived where
  params := h.params
  freq := freqOk_empty rfl rfl rfl
  tree := treeOk_of_invalid rfl
  codes := codesOk_of_invalid rfl
  mem := h.mem
  output := outputOk_of_olen_zero rfl

theorem DataOk.built : DataOk s.built where
  params := h.params
  freq := h.freq
  tree := fun _ => s.holdsTree_built
  codes := codesOk_of_invalid rfl
  mem := ⟨memory_writeFrom_ok h.mem.1 (treeArena_length_le s.freq), h.mem.2⟩
  output := h.output

/-- From a valid tree, which is FREQ's, GEN writes FREQ's codes. -/
theorem DataOk.setCodes (hvalid : s.treeValid = true) :
    DataOk (s.setCodes (codesOf s.freq) (BitVec.ofNat 9 (longestCode (codesOf s.freq)))) where
  params := h.params
  freq := h.freq
  tree := h.tree
  codes := fun _ => ⟨hvalid, s.holdsCodes_setCodes⟩
  mem := h.mem
  output := h.output

theorem DataOk.freqSetBody (y : Symbol) : DataOk (freqSetBody y s).state := by
  rcases freqSetBody_cases y s with ⟨-, hb⟩ | ⟨-, -, hb⟩ | ⟨hc, hfits, hb⟩ <;> rw [hb]
  · exact h
  · exact h
  · exact h.setFreq (freqOk_freqSet h.freq hc hfits)

theorem DataOk.freqCountBody : DataOk (freqCountBody s).state := by
  rcases freqCountBody_cases s with ⟨-, hb⟩ | ⟨-, hb⟩ <;> rw [hb]
  · exact h
  · exact h.setFreq s.freqOk_counted

theorem DataOk.genBody : DataOk (genBody s).state := by
  cases hvalid : s.treeValid with
  | true =>
    rw [genBody_of_holdsTree hvalid (h.tree hvalid) h.freq.fits]
    exact h.setCodes hvalid
  | false =>
    rw [genBody_of_no_tree hvalid]
    exact h

theorem DataOk.mapBody : DataOk (mapBody s).state := by
  rcases mapBody_cases s with ⟨-, hb⟩ | ⟨-, -, hb⟩ | ⟨-, -, ⟨c, hc, hb⟩ | ⟨e, -, hb⟩⟩ <;> rw [hb]
  · exact h.setBits h.mem.2.2.2 _
  · exact h.setBits h.mem.2.2.2 _
  · refine h.setBits (memory_writeFrom_ok h.mem.2.2.2 ?_) _
    obtain ⟨-, -, hmod⟩ := Params.legal_bounds h.params
    obtain ⟨rfl, -, hnil | hfits⟩ := mapSymbols_ok hc
    · simp [hnil]
    · rw [packWords_length]
      omega
  · exact h.setBits (memory_nil_ok _) _

end

/-- PARSE's loop ends without error only with TOTAL symbols (R180). -/
theorem scanBits_ok_length {code : Symbol → Code} {total : Nat} {bits : Code} {j start : Nat} {cand : Code}
    {out out' : List Symbol} (h : scanBits code total bits j start cand out = .ok out') : out'.length = total := by
  induction bits generalizing j start cand out with
  | nil =>
    rw [scanBits] at h
    split_ifs at h with hcand hlen
    cases h
    exact not_not.1 hlen
  | cons b bits ih =>
    rw [scanBits] at h
    split at h
    · split at h
      · cases h
      · exact ih h
    · exact ih h

section
variable {s : State} (h : DataOk s)
include h

theorem DataOk.parseBody : DataOk (parseBody s).state := by
  rcases parseBody_cases s with ⟨-, hb⟩ | ⟨-, -, hb⟩ | ⟨-, -, ⟨-, -, hb⟩ | ⟨-, -, hb⟩ | ⟨-, -, hb⟩ | ⟨-, htotal, hb⟩ |
    ⟨-, -, htotal, ⟨out, hscan, hb⟩ | ⟨idx, -, hb⟩⟩⟩ <;> rw [hb]
  · exact h.dropOutput
  · exact h.dropOutput
  · exact h.dropOutput
  · exact h.dropOutput
  · exact h.dropOutput
  · exact h.setOutput (by rwa [List.length_replicate])
  · exact h.setOutput (by rwa [scanBits_ok_length hscan])
  · exact h.voidOutput

theorem DataOk.encodeBody : DataOk (encodeBody s).state :=
  Body.cleanup_state
    (Body.andThen_state
      (Body.andThen_state (Body.andThen_state h.freqCountBody fun _ ht => ht.built) fun _ ht => ht.genBody)
      fun _ ht => ht.mapBody)
    fun _ ht => ht.setBits ht.mem.2.2.2 0#32

theorem DataOk.decodeBody : DataOk (decodeBody s).state :=
  Body.andThen_state (Body.andThen_state (b := buildBody s) h.built fun _ ht => ht.genBody) fun _ ht => ht.parseBody

/-- Every body keeps the data in form. -/
theorem DataOk.bodyOf (i : Instr) : DataOk (bodyOf i s).state := by
  cases i with
  | nop => exact h
  | clear => exact h.clearDerived
  | freqSet y => exact h.freqSetBody y
  | freqCount => exact h.freqCountBody
  | build => exact h.built
  | gen => exact h.genBody
  | map => exact h.mapBody
  | parse => exact h.parseBody
  | encode => exact h.encodeBody
  | decode => exact h.decodeBody

/-- A completion empties the latch; it keeps the error record, or writes an error (R36, R48). -/
theorem DataOk.inv_completed {e : Option ErrorKind} {x : Word} (he : e = none → x = 0#32) :
    ({ s with error := e, errIdx := x, pending := none, done := true } : State).Inv where
  params := h.params
  freq := h.freq
  latch := .inl rfl
  errIdx := he
  tree := h.tree
  codes := h.codes
  mem := h.mem
  output := h.output

end

/-! ## The steps -/

section
variable {s t : State} (h : s.Inv)
include h

theorem State.Inv.exec {i : Instr} (ht : exec i s = .next t) : t.Inv := by
  obtain ⟨e, x, rfl, hcases⟩ := exec_cases ht
  refine (h.dataOk.bodyOf i).inv_completed fun hnone => ?_
  have hkept := congrArg Prod.snd (bodyOf_hostSide i s)
  simp only [State.hostSide, Prod.mk.injEq] at hkept
  obtain ⟨herr, hidx⟩ := hkept
  rcases hcases with ⟨-, rfl, rfl⟩ | ⟨k, -, rfl⟩
  · rw [hidx]
    exact h.errIdx (herr ▸ hnone)
  · cases hnone

theorem State.Inv.engineStep (ht : engineStep s = .next t) : t.Inv := by
  rcases engineStep_cases s with ⟨-, hs⟩ | ⟨-, ⟨i, hs⟩ | ⟨w, hs⟩⟩
  · rwa [Host.Outcome.next.inj (ht.symm.trans hs)]
  · exact h.exec (hs.symm.trans ht)
  · rw [Host.Outcome.next.inj (ht.symm.trans hs)]
    exact h.dataOk.inv_completed (e := some .illegalCommand) (by simp)

/-- The draw counter, the agenda and the word read are no part of the invariant. -/
theorem State.Inv.withModelFields (agenda : List Turn) (draws : Nat) (readData : Option Word) :
    ({ s with agenda := agenda, draws := draws, readData := readData } : State).Inv :=
  ⟨h.params, h.freq, h.latch, h.errIdx, h.tree, h.codes, h.mem, h.output⟩

end

/-- A window word of SYM_IN lies below the capacity of R6. -/
theorem lt_symCap_of_locateWord {p : Params} {w i : Nat} (h : locateWord p w = .symIn i) : i < p.symCap := by
  unfold locateWord at h
  split at h
  · cases h
  · split_ifs at h
    rw [Loc.symIn.injEq] at h
    omega

/-- A window word of BITS lies below the capacity of R6. -/
theorem lt_bitCap_of_locateWord {p : Params} {w i : Nat} (h : locateWord p w = .bits i) : i < p.bitCap / 32 := by
  unfold locateWord at h
  split at h
  · cases h
  · split_ifs at h
    rw [Loc.bits.injEq] at h
    omega

theorem State.Inv.write {s t : State} {addr : Offset} {v : Word} (h : s.Inv)
    (ht : WriteEffect s (locate s.params addr) v t) : t.Inv := by
  have ⟨params, freq, latch, errIdx, tree, codes, mem, output⟩ := h
  obtain ⟨hnodes, hsymIn, hsymOut, hbits⟩ := mem
  cases ht with
  | nothing => exact h
  | reset => exact h.hardReset
  | flags =>
    refine ⟨params, freq, ?_, errIdx, tree, codes, h.mem, output⟩
    exact latch.imp_right fun ⟨hpending, hdone, herr⟩ => ⟨hpending, by simp [hdone], herr⟩
  | accept =>
    exact ⟨params, freq, .inr ⟨rfl, rfl, rfl⟩, fun _ => rfl, tree, codes, h.mem, output⟩
  | symIn i hl hp =>
    have hi := lt_symCap_of_locateWord hl
    exact ⟨params, freq, latch, errIdx, tree, codes,
      ⟨hnodes, ⟨Memory.wf_write i _ hsymIn.1, Memory.below_write _ hsymIn.2 hi⟩, hsymOut, hbits⟩, output⟩
  | bits w hl hp =>
    have hw := lt_bitCap_of_locateWord hl
    exact ⟨params, freq, latch, errIdx, tree, codes,
      ⟨hnodes, hsymIn, hsymOut, ⟨Memory.wf_write w _ hbits.1, Memory.below_write _ hbits.2 hw⟩⟩, output⟩
  | _ => exact ⟨params, freq, latch, errIdx, tree, codes, h.mem, output⟩

theorem State.Inv.hostStep {s t : State} {a : Access} (h : s.Inv) (ht : hostStep a s = .next t) : t.Inv := by
  rcases hostStep_cases ht with ⟨addr, -, rfl⟩ | ⟨addr, v, -, heffect⟩
  · exact h.withModelFields s.agenda s.draws _
  · exact h.write heffect

/-- Settles O59: a step is a host access, an engine step, a reset or an idle step, and each keeps the invariant. -/
theorem stepKeepsTheInvariant : Obligations.StepKeepsTheInvariant := by
  unfold Obligations.StepKeepsTheInvariant
  intro s t h hstep
  rcases step_cases hstep with ⟨turn, rest, -, hturn⟩ | ⟨-, -, hengine⟩ | ⟨-, rfl⟩
  · have hs : (s.tick.withAgenda rest).Inv := h.withModelFields rest (s.draws + 1) s.readData
    cases turn with
    | host a => exact hs.hostStep hturn
    | engine => exact hs.engineStep hturn
    | rst =>
      obtain rfl := Host.Outcome.next.inj hturn
      exact hs.hardReset
  · have hs : s.tick.Inv := h.withModelFields s.agenda (s.draws + 1) s.readData
    exact hs.engineStep hengine
  · exact h

end Sys2Proof.Machine
end
